-- ==== Sys2Proof/Word.lean ====
section
/-! DEFINITION. The command word and the byte of the frame buffer (`30_encoding.md` R70, `20_memory.md` R50). -/

namespace Sys2Proof

/-- A 32-bit command word, bit 31 most significant (R70). -/
abbrev Word := BitVec 32

/-- A byte of the frame buffer, bit 7 most significant (R14). -/
abbrev Byte := BitVec 8

/-- A 12-bit channel field (R11). -/
abbrev Field := BitVec 12

end Sys2Proof
end

