-- ==== Sys2Proof/Config.lean ====
section
/-! DEFINITION. The configuration fixed at create (`00_scope.md` R8 to R12) and the free values: opaque constants
without a body, of which nothing can be proved. -/

namespace Sys2Proof

/-- N and R, "fixed at construction" (R8, R9). -/
structure Config where
  /-- N, the number of chips in the chain. -/
  numDrivers : Nat
  /-- R, the number of significant intensity bits. -/
  resolutionBits : Nat
deriving DecidableEq, Repr

/-- The ranges of R8 and R9: `1 <= N <= 4096` and R in [1,12]. -/
def Config.legal (c : Config) : Bool :=
  decide (1 ≤ c.numDrivers) && decide (c.numDrivers ≤ 4096) &&
    decide (1 ≤ c.resolutionBits) && decide (c.resolutionBits ≤ 12)

/-- R10: the channel count, 16N. -/
def Config.channels (c : Config) : Nat := 16 * c.numDrivers

/-- R10: the bytes of the frame buffer, 24N. -/
def Config.fbBytes (c : Config) : Nat := 24 * c.numDrivers

/-- R10: the bits of one grayscale frame, 192N. -/
def Config.frameBits (c : Config) : Nat := 192 * c.numDrivers

/-- R10: the bits of one dot-correction load, 96N. -/
def Config.dcBits (c : Config) : Nat := 96 * c.numDrivers

/-- FREE VALUE (log 3): whether the interrupt, when it is enabled, takes the step numbered by its argument. The spec
leaves the firing time open (R186, R190, U9). -/
opaque Config.isrFires : Nat → Bool

/-- FREE VALUE (log 7): bit i of the free draw d: the chips' registers at power-up, and a latch of fewer bits than the
register holds (R200, U10, U11). -/
opaque Config.freeBit : Nat → Nat → Bool

/-- OPEN parameter CHANNEL_MAP (R12, D18): the map from a shift-order channel to a physical chip output. -/
opaque Config.channelMap : Nat → Nat

/-- OPEN parameter T_FRAME (R12, D27): the real-time length of one frame period. No rule depends on it. -/
opaque Config.tFrame : Nat

end Sys2Proof
end

