-- ==== Sys2Proof/Syntax.lean ====
section
/-! DEFINITION. The six commands of spec/opcode_table.json. Operands are unsigned naturals (`30_encoding.md` R71). -/

namespace Sys2Proof

inductive Instr where
  /-- INIT (R170): bring the block from reset to operation. -/
  | init
  /-- CLEAR (R106): zero the whole frame buffer. -/
  | clear
  /-- SETLED (R101): store one channel's intensity. -/
  | setled (channel intensity : Nat)
  /-- GETLED (R103): read back one channel's intensity. -/
  | getled (channel : Nat)
  /-- DISPLAY (R130): shift the frame buffer to the chain and mark it pending. -/
  | display
  /-- SETGLOBALDC (R140): load one dot-correction value into every channel. -/
  | setglobaldc (value : Nat)
deriving DecidableEq, Repr

end Sys2Proof
end

