-- ==== Sys2Proof/WellFormed.lean ====
section
/-! DEFINITION. Which commands a word can spell: the field widths of `30_encoding.md` R70 and R71 (and R79, what an
assembler refuses). The ranges fixed by N and R are checked by the block at issue, not here (R79). -/

namespace Sys2Proof

/-- Every operand fits its field: channel < 65536, intensity < 4096, dot-correction value < 64 (R71). -/
def Instr.wf : Instr → Bool
  | .init => true
  | .clear => true
  | .setled c v => decide (c < 65536) && decide (v < 4096)
  | .getled c => decide (c < 65536)
  | .display => true
  | .setglobaldc v => decide (v < 64)

end Sys2Proof
end

