-- ==== Sys2Proof/Decode.lean ====
section
/-! DEFINITION. The decoder (`30_encoding.md` R70 to R76) and, after it, the encoder (R79). -/

namespace Sys2Proof

/-- Why a word spells no command: faults 1 and 2 of `60_exceptions.md` R180. -/
inductive DecodeError where
  /-- R74: OP is not in 0x1 to 0x6. -/
  | illegalOpcode
  /-- R73: a reserved field of a legal opcode is not zero. -/
  | reservedNonzero
deriving DecidableEq, Repr

/-- R13: the field `w[hi:lo]` as a natural number. -/
def slice (w : Word) (hi lo : Nat) : Nat := w.toNat / 2 ^ lo % 2 ^ (hi + 1 - lo)

/-- R73: a command whose reserved field must be zero. -/
def decodeReserved (reserved : Nat) (i : Instr) : Except DecodeError Instr :=
  if reserved = 0 then .ok i else .error .reservedNonzero

/-- R75: total on the 2^32 words; depends on no state. -/
def decode (w : Word) : Except DecodeError Instr :=
  match slice w 31 28 with
  | 1 => decodeReserved (slice w 27 0) .init
  | 2 => decodeReserved (slice w 27 0) .clear
  | 3 => .ok (.setled (slice w 27 12) (slice w 11 0))
  | 4 => decodeReserved (slice w 11 0) (.getled (slice w 27 12))
  | 5 => decodeReserved (slice w 27 0) .display
  | 6 => decodeReserved (slice w 27 6) (.setglobaldc (slice w 5 0))
  | _ => .error .illegalOpcode

/-- The number an assembler writes for a command (R79), before it is cut to the word's 32 bits. -/
def encodeNat : Instr → Nat
  | .init => 0x10000000
  | .clear => 0x20000000
  | .setled c v => 0x30000000 ||| (c <<< 12) ||| v
  | .getled c => 0x40000000 ||| (c <<< 12)
  | .display => 0x50000000
  | .setglobaldc v => 0x60000000 ||| v

/-- The command word of a well-formed command (R72, R79). -/
def encode (i : Instr) : Word := BitVec.ofNat 32 (encodeNat i)

/-- The command the decoder reads from the word whose bits are w (bits above nbits zero). A command word is delivered
whole (R70), so there is no byte order to lay out. -/
def decodeTableWord (nbits w : Nat) : Option Instr :=
  match decode (BitVec.ofNat 32 (w % 2 ^ nbits)) with
  | .ok i => some i
  | .error _ => none

end Sys2Proof
end

