-- ==== Sys2Proof/Machine/State.lean ====
section
/-! DEFINITION. The state of the block: S1 to S15 of `10_state.md`, the chain observer of `60_exceptions.md` R200, the
configuration of create, and the host's command words. Plain data throughout. -/

namespace Sys2Proof.Machine

/-- A line's level (R27): 0, 1, or U, not yet driven. -/
inductive Level where
  | low
  | high
  /-- U: no claim may read it as a level (U12). -/
  | undriven
deriving DecidableEq, Repr

/-- The five lines with a level (R19, R27). GSCLK is a run/stop bit instead (R33). -/
inductive Line where
  | sclk
  | sin
  | xlat
  | blank
  | vprg
deriving DecidableEq, Repr

/-- One output event (R38). -/
inductive Event where
  /-- `SET(L, b)`: level b written to line L. -/
  | set (line : Line) (bit : Bool)
  /-- `GSCLK(b)`: b written to GSCLK_RUN. -/
  | gsclk (bit : Bool)
deriving DecidableEq, Repr

/-- S4 LIFE (R26). -/
inductive Life where
  | uninit
  | ready
deriving DecidableEq, Repr

/-- The fault codes of R180, recorded in S13. -/
inductive FaultCode where
  | illegalOpcode
  | reservedNonzero
  | notInitialised
  | reinit
  | channelRange
  | intensityRange
deriving DecidableEq, Repr

/-- R180: a fault's number. -/
def FaultCode.number : FaultCode → Nat
  | .illegalOpcode => 1
  | .reservedNonzero => 2
  | .notInitialised => 3
  | .reinit => 4
  | .channelRange => 5
  | .intensityRange => 6

/-- S13's content: the code and the offending command word (R180). -/
structure FaultRecord where
  code : FaultCode
  word : Word
deriving DecidableEq, Repr

/-- S12 OWN, the owner's position (R35). -/
inductive Own where
  | idle
  /-- The command in progress and the index of its next micro-operation. -/
  | busy (cmd : Instr) (upc : Nat)
deriving DecidableEq, Repr

/-- The frame buffer's bytes, in one canonical form (`Memory.wf`): addresses strictly rising, no entry 0x00, which is
what an unlisted byte reads as (R39: "zeroed at construction"). -/
abbrev Memory := List Host.Cell

structure State where
  /-- N and R, fixed at create (R42; log 1). -/
  cfg : Config
  /-- S1 FB, the 24N-byte frame buffer (R21). -/
  fb : Memory
  /-- S2 TP, transferPending (R23). -/
  tp : Bool
  /-- S3 NP, needPulse (R24). -/
  np : Bool
  /-- S4 LIFE (R26). -/
  life : Life
  /-- S5 SCLK, serial clock (R28). -/
  sclk : Level
  /-- S6 SIN, serial data (R29). -/
  sin : Level
  /-- S7 XLAT, latch (R30). -/
  xlat : Level
  /-- S8 BLANK, 1 = asserted (R31). -/
  blank : Level
  /-- S9 VPRG, program mode: 0 grayscale, 1 dot correction (R32). -/
  vprg : Level
  /-- S10 GSCLK_RUN (R33). -/
  gsclkRun : Bool
  /-- S11 IE, the periodic interrupt enable (R34). -/
  ie : Bool
  /-- S12 OWN (R35). -/
  own : Own
  /-- S13 FAULT (R36). -/
  fault : Option FaultRecord
  /-- S14 RESP, values returned by GETLED, oldest first (R37). -/
  resp : List Field
  /-- S15 TRACE, output events, oldest first (R38). -/
  trace : List Event
  /-- The chain observer's SR: every bit taken, oldest first (R200). -/
  sr : List Bool
  /-- The chain observer's LIVE_GS, 192N bits in shift order (R200). -/
  liveGs : List Bool
  /-- The chain observer's LIVE_DC, 96N bits in shift order (R200). -/
  liveDc : List Bool
  /-- The environment's: the command words the host has yet to issue, in program order (R192, R233; log 2). -/
  host : List Word
  /-- The model's own: the number the free choice of the agent is applied to (log 3). -/
  tick : Nat
  /-- The model's own: the number of the next free draw (log 7). -/
  draws : Nat
deriving DecidableEq, Repr

/-- How a step stops the machine. -/
inductive Fault where
  /-- Raised by `stepWith` and by every meaning in a state whose FAULT is set: "neither the owner nor the ISR has any
  further step" (R181). Safe: the spec gives no step. -/
  | halted (record : FaultRecord)
  /-- Raised by `memRead` and `memWrite` at an index outside the 24N bytes of FB, which do not exist (R50). No legal
  command makes one (R51). Safe (log 9). -/
  | noSuchByte (index : Nat)
  /-- Raised by `microStep` where OWN's upc is past the end of the command's micro-program, a position R35 never
  reaches. Safe (log 9). -/
  | noMicroOp (upc : Nat)
deriving DecidableEq, Repr

/-- What the model gives no meaning. -/
inductive Refusal where
  /-- An instruction not modelled yet, by its mnemonic: raised by no arm. Safe. -/
  | notModelled (mnemonic : String)
  /-- Raised by every meaning when another command is in progress: a second calling context, which R198 and U6 refuse.
  No step of the machine asks for it. Safe (log 10). -/
  | concurrentCaller
deriving DecidableEq, Repr

/-- The free draw d as a register of n bits (log 7). -/
def freeBits (d n : Nat) : List Bool := (List.range n).map (Config.freeBit d)

/-- R39 and R210: every element at its reset value, for an instance created with configuration c. -/
def State.initial (c : Config) : State where
  cfg := c
  fb := []
  tp := false
  np := false
  life := .uninit
  sclk := .undriven
  sin := .undriven
  xlat := .undriven
  blank := .undriven
  vprg := .undriven
  gsclkRun := false
  ie := false
  own := .idle
  fault := none
  resp := []
  trace := []
  sr := []
  liveGs := freeBits 0 c.frameBits
  liveDc := freeBits 1 c.dcBits
  host := []
  tick := 0
  draws := 2

/-- R210: `create(numDrivers, resolutionBits=12)`; a construction out of range is refused, no block exists (R8, R9). -/
def State.create (n : Nat) (r : Nat := 12) : Option State :=
  if (Config.mk n r).legal then some (State.initial ⟨n, r⟩) else none

/-- The machine right after reset: `create(1)`. R = 12 is create's default (R9); N = 1 is the model's choice (log 1). -/
def State.reset : State := State.initial ⟨1, 12⟩

end Sys2Proof.Machine
end

