-- ==== Sys2Proof/Machine/Flags.lean ====
section
/-! DEFINITION. The two transfer flags and the mode bits: every write and every test of one
(`10_state.md` R23 to R26, R34; `41_serial_shift.md` R120, R121). -/

namespace Sys2Proof.Machine

/-- The flags FSET writes (R120). -/
inductive Flag where
  | tp
  | np
deriving DecidableEq, Repr

/-- `FSET(F, b)`: `F <- b`; no trace event (R120). -/
def State.setFlag (f : Flag) (b : Bool) (s : State) : State :=
  match f with
  | .tp => { s with tp := b }
  | .np => { s with np := b }

/-- `IESET(b)`: `IE <- b`; no trace event (R120). -/
def State.setIe (b : Bool) (s : State) : State := { s with ie := b }

/-- `LIFESET`: `LIFE <- READY`; no trace event (R120). -/
def State.setReady (s : State) : State := { s with life := .ready }

/-- R121: the owner holds at `WAIT_TP0` while TP = 1. -/
def State.holds (s : State) : Bool := s.tp

/-- R40: the block is BLANKED exactly when BLANK = 1. -/
def State.blanked (s : State) : Bool := decide (s.blank = .high)

/-- R40: the block is ACTIVE exactly when BLANK = 0. -/
def State.active (s : State) : Bool := decide (s.blank = .low)

end Sys2Proof.Machine
end

