-- ==== Sys2Proof/Machine/Ops.lean ====
section
/-! DEFINITION. The named operations: the frame buffer's bytes, the output lines with the chain that observes them,
raising a fault, and the interrupt, its entry and its return. -/

namespace Sys2Proof.Machine

/-! ### The frame buffer's bytes (`20_memory.md` R50) -/

/-- What an unlisted byte reads as: FB is zeroed at construction (R39). -/
def Memory.unlisted : Byte := 0

/-- The byte at an address, of all the addresses there are. -/
def Memory.read : Memory → Nat → Byte
  | [], _ => Memory.unlisted
  | (x, y) :: m, a => if x = a then y else Memory.read m a

/-- Put a byte before the cells of higher addresses, unless it is what an unlisted address reads as. -/
def Memory.cons (a : Nat) (b : Byte) (m : Memory) : Memory :=
  if b = Memory.unlisted then m else (a, b) :: m

/-- Write one byte, keeping the canonical form. -/
def Memory.write : Memory → Nat → Byte → Memory
  | [], a, b => Memory.cons a b []
  | (x, y) :: m, a, b =>
    if a < x then Memory.cons a b ((x, y) :: m)
    else if a = x then Memory.cons a b m
    else (x, y) :: Memory.write m a b

/-- The canonical form from an address on: strictly rising, no entry an unlisted address reads as. -/
def Memory.wfFrom : Nat → Memory → Bool
  | _, [] => true
  | lo, (x, y) :: m => decide (lo ≤ x) && decide (y ≠ Memory.unlisted) && Memory.wfFrom (x + 1) m

/-- The canonical form. -/
def Memory.wf (m : Memory) : Bool := Memory.wfFrom 0 m

/-- Every listed address is below n. -/
def Memory.below (n : Nat) (m : Memory) : Bool := m.all fun c => decide (c.1 < n)

/-- `MemRead(i, 1)` (R14). An index outside FB does not exist (R50). -/
def State.memRead (i : Nat) (s : State) : Except Fault Byte :=
  if i < s.cfg.fbBytes then .ok (Memory.read s.fb i) else .error (.noSuchByte i)

/-- `MemWrite(i, 1, b)` (R14). -/
def State.memWrite (i : Nat) (b : Byte) (s : State) : Except Fault State :=
  if i < s.cfg.fbBytes then .ok { s with fb := Memory.write s.fb i b } else .error (.noSuchByte i)

/-! ### The lines and the chain (`10_state.md` R27 to R33, R38; `60_exceptions.md` R200) -/

/-- The level a bit drives (R27). -/
def Level.ofBit (b : Bool) : Level := if b then .high else .low

/-- A line's level. -/
def State.line (l : Line) (s : State) : Level :=
  match l with
  | .sclk => s.sclk
  | .sin => s.sin
  | .xlat => s.xlat
  | .blank => s.blank
  | .vprg => s.vprg

/-- Set a line's level; no other line changes (R60). -/
def State.setLine (l : Line) (v : Level) (s : State) : State :=
  match l with
  | .sclk => { s with sclk := v }
  | .sin => { s with sin := v }
  | .xlat => { s with xlat := v }
  | .blank => { s with blank := v }
  | .vprg => { s with vprg := v }

/-- The last n bits of a list, oldest first (R200). -/
def lastBits (n : Nat) (bits : List Bool) : List Bool := bits.drop (bits.length - n)

/-- R200: the chain takes one bit, the level of SIN. A SIN not yet driven has any level (U12): a free bit (log 6). -/
def State.takeBit (s : State) : State :=
  match s.sin with
  | .low => { s with sr := s.sr ++ [false] }
  | .high => { s with sr := s.sr ++ [true] }
  | .undriven => { s with sr := s.sr ++ freeBits s.draws 1, draws := s.draws + 1 }

/-- R200: what a latch of n bits commits, with the free draws used: "if SR has fewer bits than needed, the result is
unknown" (U11). -/
def State.latched (n : Nat) (s : State) : List Bool :=
  if s.sr.length < n then freeBits s.draws n else lastBits n s.sr

/-- The next free draw after a latch of n bits. -/
def State.drawsAfterLatch (n : Nat) (s : State) : Nat :=
  if s.sr.length < n then s.draws + 1 else s.draws

/-- R200: the chain commits SR to LIVE_GS (VPRG = 0) or to LIVE_DC (VPRG = 1). With VPRG not yet driven neither case
of the rule applies (log 6). -/
def State.latch (s : State) : State :=
  match s.vprg with
  | .low => { s with liveGs := s.latched s.cfg.frameBits, draws := s.drawsAfterLatch s.cfg.frameBits }
  | .high => { s with liveDc := s.latched s.cfg.dcBits, draws := s.drawsAfterLatch s.cfg.dcBits }
  | .undriven => s

/-- R200: the chain's reaction to `SET(l, b)`, taken on the levels before the event: it takes a bit at SCLK's
0-to-1 transition and latches at XLAT's. -/
def State.observe (l : Line) (b : Bool) (s : State) : State :=
  match l, b with
  | .sclk, true => if s.sclk = .low then s.takeBit else s
  | .xlat, true => if s.xlat = .low then s.latch else s
  | _, _ => s

/-- Append one event to the trace (R38). -/
def State.emit (e : Event) (s : State) : State := { s with trace := s.trace ++ [e] }

/-- `line L <- b` (R14): the line takes the level and the trace the event, whether or not the level changes (R38). -/
def State.driveLine (l : Line) (b : Bool) (s : State) : State :=
  ((s.observe l b).setLine l (Level.ofBit b)).emit (.set l b)

/-- `GSCLK_RUN <- b` (R33): appends `GSCLK(b)`. -/
def State.driveGsclk (b : Bool) (s : State) : State :=
  { s with gsclkRun := b }.emit (.gsclk b)

/-- `line L <- 1; line L <- 0` (R28, R30). -/
def State.pulse (l : Line) (s : State) : State := (s.driveLine l true).driveLine l false

/-! ### Visible output (`60_exceptions.md` R200, R201) -/

/-- A list of bits, most significant first, as a natural number (R200). -/
def bitsToNat (bits : List Bool) : Nat := bits.foldl (fun n b => 2 * n + b.toNat) 0

/-- R200: the LIVE_GS field of a shift-order channel. -/
def State.gsField (c : Nat) (s : State) : Nat := bitsToNat ((s.liveGs.drop (12 * c)).take 12)

/-- R200: the LIVE_DC field of a shift-order channel. -/
def State.dcField (c : Nat) (s : State) : Nat := bitsToNat ((s.liveDc.drop (6 * c)).take 6)

/-- What a channel's output shows (R201). The PWM waveform itself is outside the block. -/
inductive Visible where
  /-- BLANK = 1: "forcing all outputs off". -/
  | off
  /-- BLANK = 0: driven by the LIVE_GS field, limited by the LIVE_DC field. -/
  | driven (gs dc : Nat)
  /-- BLANK not yet driven: no claim may read it (U12; log 8). -/
  | undetermined
deriving DecidableEq, Repr

/-- R201: the output of shift-order channel c. -/
def State.visible (c : Nat) (s : State) : Visible :=
  match s.blank with
  | .high => .off
  | .low => .driven (s.gsField c) (s.dcField c)
  | .undriven => .undetermined

/-- R12, R200: the physical output that shows shift-order channel c. -/
def physicalOutput (c : Nat) : Nat := Config.channelMap c

/-! ### Faults (`60_exceptions.md` R180, R181) -/

/-- R180: `FAULT <- (code, w)`. Nothing else changes (R181). -/
def State.raiseFault (code : FaultCode) (w : Word) (s : State) : State :=
  { s with fault := some ⟨code, w⟩ }

/-- R180: the code of a word that spells no command. -/
def decodeFaultCode : DecodeError → FaultCode
  | .illegalOpcode => .illegalOpcode
  | .reservedNonzero => .reservedNonzero

/-! ### The interrupt (`43_latch_blank.md` R151 to R155, `60_exceptions.md` R187, R188) -/

/-- R151, step 1: BLANKED. Nothing is saved and there is no vector (R187). -/
def State.isrEntry (s : State) : State := (s.driveLine .blank true).driveGsclk false

/-- R153: the extra clock pulse owed after a dot-correction reprogram. SIN is not written (D19). -/
def State.isrExtraPulse (s : State) : State :=
  if s.np then (s.pulse .sclk).setFlag .np false else s

/-- R152, step 2: the latch decision, with R153 inside it. -/
def State.isrLatch (s : State) : State :=
  if s.tp then ((s.pulse .xlat).setFlag .tp false).isrExtraPulse else s

/-- R154, step 3: ACTIVE. Restarting the periodic timer changes no modelled state (D28). The owner resumes where it
was (R188). -/
def State.isrExit (s : State) : State := (s.driveLine .blank false).driveGsclk true

/-- R155: one firing, one atomic step. -/
def State.isr (s : State) : State := s.isrEntry.isrLatch.isrExit

end Sys2Proof.Machine
end

