-- ==== Sys2Proof/Machine/Operands.lean ====
section
/-! DEFINITION. The operands: where a channel's field lies in FB and how it is read and written, the serial order of
FB's bits, and the range checks made at issue (`20_memory.md` R51 to R58, `40_framebuffer.md` R100 to R106,
`60_exceptions.md` R182 to R185). -/

namespace Sys2Proof.Machine

/-! ### A channel's field -/

/-- R51: the byte index of channel c's field, `floor(12*c / 8)`. -/
def fieldByte (c : Nat) : Nat := 12 * c / 8

/-- R51: the bit phase of channel c's field is 0 (c even; C1). -/
def fieldAligned (c : Nat) : Bool := decide (12 * c % 8 = 0)

/-- R100: the 12-bit field of a channel, from its two bytes b0 = FB[k] and b1 = FB[k+1]. -/
def fieldOfBytes (c : Nat) (b0 b1 : Byte) : Field :=
  if fieldAligned c then b0 ++ b1.extractLsb' 4 4 else b0.extractLsb' 0 4 ++ b1

/-- R100: the byte FB[k] after field value v is written, from its old content. -/
def fieldFirstByte (c : Nat) (v : Field) (b0 : Byte) : Byte :=
  if fieldAligned c then v.extractLsb' 4 8 else b0.extractLsb' 4 4 ++ v.extractLsb' 8 4

/-- R100: the byte FB[k+1] after field value v is written, from its old content. -/
def fieldSecondByte (c : Nat) (v : Field) (b1 : Byte) : Byte :=
  if fieldAligned c then v.extractLsb' 0 4 ++ b1.extractLsb' 0 4 else v.extractLsb' 0 8

/-- R100: `fieldRead(FB, c)`. -/
def State.fieldRead (c : Nat) (s : State) : Except Fault Field :=
  match s.memRead (fieldByte c), s.memRead (fieldByte c + 1) with
  | .ok b0, .ok b1 => .ok (fieldOfBytes c b0 b1)
  | .error e, _ => .error e
  | _, .error e => .error e

/-- R100: `fieldWrite(FB, c, v)`. -/
def State.fieldWrite (c : Nat) (v : Field) (s : State) : Except Fault State :=
  match s.memRead (fieldByte c), s.memRead (fieldByte c + 1) with
  | .ok b0, .ok b1 =>
    match s.memWrite (fieldByte c) (fieldFirstByte c v b0) with
    | .ok s' => s'.memWrite (fieldByte c + 1) (fieldSecondByte c v b1)
    | .error e => .error e
  | .error e, _ => .error e
  | _, .error e => .error e

/-- R101, R102: the stored value, `v << (12 - R)`; below 4096 for a legal v. -/
def storedValue (cfg : Config) (v : Nat) : Field := BitVec.ofNat 12 (v <<< (12 - cfg.resolutionBits))

/-- R103: the intensity of a stored value, `s >> (12 - R)`. -/
def intensityOf (cfg : Config) (f : Field) : Field := f >>> (12 - cfg.resolutionBits)

/-! ### The bodies of the three accessors -/

/-- R101: the body of SETLED. -/
def State.setledBody (c v : Nat) (s : State) : Except Fault State :=
  s.fieldWrite c (storedValue s.cfg v)

/-- R103: the body of GETLED. -/
def State.getledBody (c : Nat) (s : State) : Except Fault State :=
  match s.fieldRead c with
  | .ok f => .ok { s with resp := s.resp ++ [intensityOf s.cfg f] }
  | .error e => .error e

/-- Write 0x00 to the bytes of a list of indices, in order. -/
def State.zeroBytes : List Nat → State → Except Fault State
  | [], s => .ok s
  | i :: is, s =>
    match s.memWrite i 0 with
    | .ok s' => State.zeroBytes is s'
    | .error e => .error e

/-- R106: the body of CLEAR: `for i in 0 .. 24N-1: MemWrite(i, 1, 0x00)`. -/
def State.clearBody (s : State) : Except Fault State := s.zeroBytes (List.range s.cfg.fbBytes)

/-! ### The serial order of the frame buffer -/

/-- R52: buffer bit p of a byte, `FB[p/8][7 - (p mod 8)]`. -/
def bitOfByte (p : Nat) (b : Byte) : Bool := b.getLsbD (7 - p % 8)

/-- R52: buffer bit p of a memory. -/
def Memory.bit (m : Memory) (p : Nat) : Bool := bitOfByte p (Memory.read m (p / 8))

/-- R58: the serialisation of FB, buffer bits 0 to 192N-1. -/
def State.frame (s : State) : List Bool := (List.range s.cfg.frameBits).map (Memory.bit s.fb)

/-- `line SIN <- FB[p/8][7 - (p mod 8)]` (R120, SINFB). -/
def State.driveSinFromFb (p : Nat) (s : State) : Except Fault State :=
  match s.memRead (p / 8) with
  | .ok b => .ok (s.driveLine .sin (bitOfByte p b))
  | .error e => .error e

/-! ### The checks at issue -/

/-- R182: a command other than INIT needs LIFE = READY. -/
def State.readyCheck (s : State) : Option FaultCode :=
  if s.life = .uninit then some .notInitialised else none

/-- R182: INIT needs LIFE = UNINIT. -/
def State.initCheck (s : State) : Option FaultCode :=
  if s.life = .ready then some .reinit else none

/-- R183: `channel >= 16N` faults. -/
def State.channelCheck (c : Nat) (s : State) : Option FaultCode :=
  if c ≥ s.cfg.channels then some .channelRange else none

/-- R184: `intensity >= 2^R` faults. -/
def State.intensityCheck (v : Nat) (s : State) : Option FaultCode :=
  if v ≥ 2 ^ s.cfg.resolutionBits then some .intensityRange else none

/-- R73, U3: a dot-correction value above 63 sets a reserved bit (no decoded command holds one; log 11). -/
def dcCheck (v : Nat) : Option FaultCode :=
  if v ≥ 64 then some .reservedNonzero else none

/-- R185: the first check that fails is the one raised. -/
def firstFault : List (Option FaultCode) → Option FaultCode
  | [] => none
  | some code :: _ => some code
  | none :: rest => firstFault rest

end Sys2Proof.Machine
end

