-- ==== Sys2Proof/Machine/Micro.lean ====
section
/-! DEFINITION. The owner: the micro-operations of `41_serial_shift.md` R120, the issue step of `60_exceptions.md` R185
and the one shared operation every command's meaning calls. -/

namespace Sys2Proof.Machine

/-- The three accessors `ACC` runs (R120). -/
inductive Accessor where
  | clear
  | setled (channel intensity : Nat)
  | getled (channel : Nat)
deriving DecidableEq, Repr

/-- The micro-operations (R120). -/
inductive MicroOp where
  /-- `WAIT_TP0`: hold while TP = 1. -/
  | waitTp0
  /-- `LSET(L, b)`. -/
  | lset (line : Line) (bit : Bool)
  /-- `SINFB(p)`: drive buffer bit p on SIN. -/
  | sinfb (bit : Nat)
  /-- `SINV(b)`: drive a constant on SIN. -/
  | sinv (bit : Bool)
  /-- `FSET(F, b)`. -/
  | fset (flag : Flag) (bit : Bool)
  /-- `GSET(b)`. -/
  | gset (bit : Bool)
  /-- `IESET(b)`. -/
  | ieset (bit : Bool)
  /-- `LIFESET`. -/
  | lifeset
  /-- `ACC(cmd)`: the whole body of an accessor. -/
  | acc (accessor : Accessor)
deriving DecidableEq, Repr

/-- The body of an accessor (R101, R103, R106). -/
def Accessor.run : Accessor → State → Except Fault State
  | .clear, s => s.clearBody
  | .setled c v, s => s.setledBody c v
  | .getled c, s => s.getledBody c

/-- The effect of a micro-operation that does not hold (R120). -/
def MicroOp.run : MicroOp → State → Except Fault State
  | .waitTp0, s => .ok s
  | .lset l b, s => .ok (s.driveLine l b)
  | .sinfb p, s => s.driveSinFromFb p
  | .sinv b, s => .ok (s.driveLine .sin b)
  | .fset f b, s => .ok (s.setFlag f b)
  | .gset b, s => .ok (s.driveGsclk b)
  | .ieset b, s => .ok (s.setIe b)
  | .lifeset, s => .ok s.setReady
  | .acc a, s => a.run s

/-- R121: only `WAIT_TP0` holds, while TP = 1. -/
def MicroOp.holds : MicroOp → State → Bool
  | .waitTp0, s => s.holds
  | _, _ => false

/-- R120: `upc <- upc + 1`; at the micro-program's length OWN becomes idle. -/
def ownAfter (cmd : Instr) (len upc : Nat) : Own :=
  if upc + 1 < len then .busy cmd (upc + 1) else .idle

/-- One micro-step of the command in progress (R120), or a hold, which changes nothing (R121). -/
def State.microStep (cmd : Instr) (prog : List MicroOp) (upc : Nat) (s : State) : Host.Outcome State Fault Refusal :=
  match prog[upc]? with
  | none => .fault (.noMicroOp upc)
  | some op =>
    if op.holds s then .next s
    else
      match op.run s with
      | .ok t => .next { t with own := ownAfter cmd prog.length upc }
      | .error e => .fault e

/-- R185: the issue step, after decode: the first failing check is recorded in FAULT with the command's word, else the
command is accepted at micro-step 0. -/
def State.issue (cmd : Instr) (checks : List (Option FaultCode)) (s : State) : State :=
  match firstFault checks with
  | some code => s.raiseFault code (encode cmd)
  | none => { s with own := .busy cmd 0 }

/-- The owner's next step of a command (R120, R185, R192): its issue when the owner is idle, its next micro-operation
when it is in progress. No step in a faulted block (R181); another command in progress is a second caller (R198). -/
def State.ownerCommand (cmd : Instr) (checks : List (Option FaultCode)) (prog : List MicroOp) (s : State) :
    Host.Outcome State Fault Refusal :=
  match s.fault with
  | some record => .fault (.halted record)
  | none =>
    match s.own with
    | .idle => .next (s.issue cmd checks)
    | .busy current upc => if current = cmd then s.microStep cmd prog upc else .refused .concurrentCaller

end Sys2Proof.Machine
end

