-- ==== Sys2Proof/Machine/FrameBuffer.lean ====
section
/-! DEFINITION. The three buffer accessors CLEAR, SETLED and GETLED (`40_framebuffer.md`): each is one indivisible
micro-step after its issue. -/

namespace Sys2Proof.Machine

/-- CLEAR's micro-program (R120). -/
def clearProgram : List MicroOp := [.acc .clear]

/-- SETLED's micro-program (R120). -/
def setledProgram (c v : Nat) : List MicroOp := [.acc (.setled c v)]

/-- GETLED's micro-program (R120). -/
def getledProgram (c : Nat) : List MicroOp := [.acc (.getled c)]

/-- CLEAR (R106). -/
def execClear (s : State) : Host.Outcome State Fault Refusal :=
  s.ownerCommand .clear [s.readyCheck] clearProgram

/-- SETLED (R101), its checks in the order of R185. -/
def execSetled (c v : Nat) (s : State) : Host.Outcome State Fault Refusal :=
  s.ownerCommand (.setled c v) [s.readyCheck, s.channelCheck c, s.intensityCheck v] (setledProgram c v)

/-- GETLED (R103), its checks in the order of R185. -/
def execGetled (c : Nat) (s : State) : Host.Outcome State Fault Refusal :=
  s.ownerCommand (.getled c) [s.readyCheck, s.channelCheck c] (getledProgram c)

end Sys2Proof.Machine
end

