-- ==== Sys2Proof/Machine/SerialShift.lean ====
section
/-! DEFINITION. The serial shift controller and DISPLAY (`41_serial_shift.md`). -/

namespace Sys2Proof.Machine

/-- R124: one transmitted bit, the write of SIN given: then `SCLK <- 1; SCLK <- 0`. -/
def bitTriple (sin : MicroOp) : List MicroOp := [sin, .lset .sclk true, .lset .sclk false]

/-- R123: `SHIFT(x, k)`, most significant bit first. -/
def shift (x k : Nat) : List MicroOp :=
  (List.range k).reverse.flatMap fun i => bitTriple (.sinv (x.testBit i))

/-- R125: `SHIFT8(x)`. -/
def shift8 (x : Nat) : List MicroOp := shift x 8

/-- R126: `SHIFT6(x)`. -/
def shift6 (x : Nat) : List MicroOp := shift x 6

/-- R129: DISPLAY's micro-program `DISP`, for N = n. -/
def displayProgram (n : Nat) : List MicroOp :=
  [.waitTp0, .lset .vprg false]
  ++ (List.range (192 * n)).flatMap (fun p => bitTriple (.sinfb p))
  ++ [.fset .tp true]

/-- DISPLAY (R130). -/
def execDisplay (s : State) : Host.Outcome State Fault Refusal :=
  s.ownerCommand .display [s.readyCheck] (displayProgram s.cfg.numDrivers)

end Sys2Proof.Machine
end

