-- ==== Sys2Proof/Machine/DotCorrection.lean ====
section
/-! DEFINITION. The dot-correction loader, SETGLOBALDC (`42_dot_correction.md`). -/

namespace Sys2Proof.Machine

/-- R141: SETGLOBALDC's micro-program `DCP(v)`, for N = n. -/
def dcProgram (n v : Nat) : List MicroOp :=
  [.waitTp0, .lset .vprg true]
  ++ (List.range (16 * n)).flatMap (fun _ => shift6 v)
  ++ [.lset .xlat true, .lset .xlat false, .lset .vprg false, .fset .np true]

/-- SETGLOBALDC (R140). A value above 63 has no word and is RESERVED_NONZERO (R73; log 11). -/
def execSetglobaldc (v : Nat) (s : State) : Host.Outcome State Fault Refusal :=
  s.ownerCommand (.setglobaldc v) [dcCheck v, s.readyCheck] (dcProgram s.cfg.numDrivers v)

end Sys2Proof.Machine
end

