-- ==== Sys2Proof/Machine/Init.lean ====
section
/-! DEFINITION. Initialisation, INIT (`44_init.md`). -/

namespace Sys2Proof.Machine

/-- R171, parts 1 and 2: pin directions, then blank asserted. -/
def initPins : List MicroOp :=
  [.lset .sclk false, .lset .sin false, .lset .xlat false, .lset .vprg false, .lset .blank true]

/-- R170: INIT's micro-program `INITP`, for N = n: the pins, dot correction to maximum (R172), the timers (R173), the
interrupt (R174), the display of the zeroed buffer (R175), LIFE (R176). -/
def initProgram (n : Nat) : List MicroOp :=
  initPins ++ dcProgram n 63 ++ [.gset true] ++ [.ieset true] ++ displayProgram n ++ [.lifeset]

/-- INIT (R170). -/
def execInit (s : State) : Host.Outcome State Fault Refusal :=
  s.ownerCommand .init [s.initCheck] (initProgram s.cfg.numDrivers)

end Sys2Proof.Machine
end

