-- ==== Sys2Proof/Machine/Dispatch.lean ====
section
/-! DEFINITION. One arm per command. -/

namespace Sys2Proof.Machine

/-- The owner's next step of the command i. -/
def exec (i : Instr) (s : State) : Host.Outcome State Fault Refusal :=
  match i with
  | .init => Sys2Proof.Machine.execInit s
  | .clear => Sys2Proof.Machine.execClear s
  | .setled c v => Sys2Proof.Machine.execSetled c v s
  | .getled c => Sys2Proof.Machine.execGetled c s
  | .display => Sys2Proof.Machine.execDisplay s
  | .setglobaldc v => Sys2Proof.Machine.execSetglobaldc v s

end Sys2Proof.Machine
end

