-- ==== Sys2Proof/Machine/Scheduler.lean ====
section
/-! DEFINITION. The two agents and their interleaving (`60_exceptions.md` R186 to R192): the owner's step, the step
with the choice of agent given, and runs under a given schedule. -/

namespace Sys2Proof.Machine

/-- The host issues the word w to an idle owner (R185): decode first, its faults recorded with the word; then the
command's own issue. -/
def State.issueWord (w : Word) (s : State) : Host.Outcome State Fault Refusal :=
  match decode w with
  | .ok i => exec i s
  | .error e => .next (s.raiseFault (decodeFaultCode e) w)

/-- The owner's step (R15, R192): the command in progress, else the host's next word, taken from the program; with none
left the owner has no step and nothing changes (log 4). -/
def State.ownerStep (s : State) : Host.Outcome State Fault Refusal :=
  match s.own with
  | .busy cmd _ => exec cmd s
  | .idle =>
    match s.host with
    | [] => .next s
    | w :: rest => { s with host := rest }.issueWord w

/-- The counter of the free choice moves on at every step (log 3). -/
def State.tickOn (s : State) : State := { s with tick := s.tick + 1 }

/-- One step, the choice given: the interrupt if it fires and is enabled (R186), else the owner. None once FAULT is
set (R181). -/
def stepWith (fires : Bool) (s : State) : Host.Outcome State Fault Refusal :=
  match s.fault with
  | some record => .fault (.halted record)
  | none => if s.ie && fires then .next s.tickOn.isr else s.tickOn.ownerStep

/-- A run under a schedule: true where the interrupt fires. It stops at the first fault or refusal. -/
def runWith : List Bool → State → Host.Outcome State Fault Refusal
  | [], s => .next s
  | fires :: rest, s =>
    match stepWith fires s with
    | .next t => runWith rest t
    | .fault f => .fault f
    | .refused r => .refused r

/-- k steps of the owner with no firing between them. -/
def ownerRun (k : Nat) (s : State) : Host.Outcome State Fault Refusal := runWith (List.replicate k false) s

/-- Give the owner, idle, the word whose bits are w as its next command (bits above nbits zero; log 2). -/
def State.placeWord (nbits w : Nat) (s : State) : State :=
  { s with own := .idle, host := BitVec.ofNat 32 (w % 2 ^ nbits) :: s.host }

end Sys2Proof.Machine
end

