-- ==== Sys2Proof/Machine/Step.lean ====
section
/-! DEFINITION. The step of the machine: the agent is chosen by the free value `Config.isrFires` (log 3). -/

namespace Sys2Proof.Machine

/-- One step (R63, R186, R190). -/
def step (s : State) : Host.Outcome State Fault Refusal := stepWith (Config.isrFires s.tick) s

/-- s with the word placed as the host's next command, so that step issues it (log 2). -/
def State.withFetchWord (s : State) (nbits w : Nat) : State := s.placeWord nbits w

end Sys2Proof.Machine
end

