-- ==== Sys2Proof/Machine/Assembler.lean ====
section
/-! DEFINITION. The assembler of `30_encoding.md` R79 and R80: text to command words, with the CREATE header. A line is
a list of characters. White space, hexadecimal digits of either case and a comment after a command are the model's
reading (log 12). -/

namespace Sys2Proof.Machine

/-- What one line of assembler text says. -/
inductive AsmLine where
  /-- Nothing, or a comment. -/
  | blank
  /-- The header `CREATE <N>[, <R>]` (R80). -/
  | create (n r : Nat)
  /-- A command and its operands (R79). -/
  | command (i : Instr)
deriving DecidableEq, Repr

/-- A space between words. -/
def asmSpace (c : Char) : Bool := c == ' ' || c == '\t'

/-- The line before its comment, R79: "A line `; text` is a comment". -/
def asmUncomment (line : List Char) : List Char := line.takeWhile (fun c => c != ';')

/-- A word without the spaces around it. -/
def asmTrim (cs : List Char) : List Char :=
  ((cs.dropWhile asmSpace).reverse.dropWhile asmSpace).reverse

/-- The parts of a text between commas. -/
def asmCommas : List Char → List (List Char)
  | [] => [[]]
  | c :: cs =>
    match asmCommas cs with
    | [] => [[c]]
    | p :: ps => if c == ',' then [] :: p :: ps else (c :: p) :: ps

/-- A digit's value in a base up to 16. -/
def asmDigit (base : Nat) (c : Char) : Option Nat :=
  let n := c.toNat
  let v := if 48 ≤ n ∧ n ≤ 57 then n - 48
    else if 97 ≤ n ∧ n ≤ 102 then n - 87
    else if 65 ≤ n ∧ n ≤ 70 then n - 55
    else 16
  if v < base then some v else none

/-- The digits of a number, after the value of those before them. -/
def asmDigits (base : Nat) : Nat → List Char → Option Nat
  | acc, [] => some acc
  | acc, c :: cs =>
    match asmDigit base c with
    | some d => asmDigits base (base * acc + d) cs
    | none => none

/-- R79: "numbers in decimal or with `0x`". -/
def asmNumber (cs : List Char) : Option Nat :=
  match cs with
  | [] => none
  | '0' :: 'x' :: [] => none
  | '0' :: 'x' :: ds => asmDigits 16 0 ds
  | ds => asmDigits 10 0 ds

/-- All operands of a line, or none if one is no number. -/
def asmNumbers : List (List Char) → Option (List Nat)
  | [] => some []
  | p :: ps =>
    match asmNumber (asmTrim p), asmNumbers ps with
    | some n, some ns => some (n :: ns)
    | _, _ => none

/-- The operands after the mnemonic: none, or numbers separated by commas. -/
def asmOperands (cs : List Char) : Option (List Nat) :=
  match asmTrim cs with
  | [] => some []
  | text => asmNumbers (asmCommas text)

/-- A command an assembler accepts: one a word can hold (R79). -/
def asmCommand (i : Instr) : Option AsmLine := if i.wf then some (.command i) else none

/-- R79, R80: a mnemonic, in capitals, with its operands. -/
def asmStatement (mnemonic : List Char) (operands : List Nat) : Option AsmLine :=
  match mnemonic, operands with
  | ['C', 'R', 'E', 'A', 'T', 'E'], [n] => some (.create n 12)
  | ['C', 'R', 'E', 'A', 'T', 'E'], [n, r] => some (.create n r)
  | ['I', 'N', 'I', 'T'], [] => asmCommand .init
  | ['C', 'L', 'E', 'A', 'R'], [] => asmCommand .clear
  | ['S', 'E', 'T', 'L', 'E', 'D'], [c, v] => asmCommand (.setled c v)
  | ['G', 'E', 'T', 'L', 'E', 'D'], [c] => asmCommand (.getled c)
  | ['D', 'I', 'S', 'P', 'L', 'A', 'Y'], [] => asmCommand .display
  | ['S', 'E', 'T', 'G', 'L', 'O', 'B', 'A', 'L', 'D', 'C'], [v] => asmCommand (.setglobaldc v)
  | _, _ => none

/-- One line of assembler text (R79): "Mnemonics are case-insensitive". -/
def asmLine (line : List Char) : Option AsmLine :=
  match asmTrim (asmUncomment line) with
  | [] => some .blank
  | text =>
    match asmOperands (text.dropWhile (fun c => !asmSpace c)) with
    | some operands => asmStatement ((text.takeWhile (fun c => !asmSpace c)).map Char.toUpper) operands
    | none => none

/-- The command words of the lines after the header; a second header is no command (R80). -/
def asmWords : List (List Char) → Option (List Word)
  | [] => some []
  | line :: lines =>
    match asmLine line, asmWords lines with
    | some .blank, some ws => some ws
    | some (.command i), some ws => some (encode i :: ws)
    | _, _ => none

/-- A program text: its header creates the block (R80, R210) and its commands are the words the host will issue
(R192). -/
def assemble : List (List Char) → Option State
  | [] => none
  | line :: lines =>
    match asmLine line with
    | some .blank => assemble lines
    | some (.create n r) =>
      match State.create n r, asmWords lines with
      | some s, some ws => some { s with host := ws }
      | _, _ => none
    | _ => none

end Sys2Proof.Machine
end

