-- ==== Sys2Proof/Safety.lean ====
section
/-! DEFINITION. What claims are stated in: reachable states, the invariant of the machine, the end of a run, fair
schedules, and the view of a trace that a conforming implementation keeps. -/

namespace Sys2Proof.Machine

/-! ### Reachable states (`70_reset_and_hazards.md` R210, `60_exceptions.md` R190) -/

/-- A state some run reaches: from create with any legal N and R and any program, by steps of either agent in any
order. -/
inductive Reachable : State → Prop where
  | create (c : Config) (program : List Word) :
      c.legal = true → Reachable { State.initial c with host := program }
  | step (fires : Bool) (s t : State) : Reachable s → stepWith fires s = .next t → Reachable t

/-- A reachable state with the frame of the most recent DISPLAY, INIT's included: the serialisation of FB when that
DISPLAY's last micro-step set TP (R202). -/
inductive ReachableWith : State → Option (List Bool) → Prop where
  | create (c : Config) (program : List Word) :
      c.legal = true → ReachableWith { State.initial c with host := program } none
  | step (fires : Bool) (s t : State) (frame : Option (List Bool)) :
      ReachableWith s frame → stepWith fires s = .next t →
      ReachableWith t (if t.tp && !s.tp then some s.frame else frame)

/-! ### The micro-program in progress -/

/-- The micro-program of a command (R129, R141, R170). -/
def programOf (n : Nat) : Instr → List MicroOp
  | .init => initProgram n
  | .clear => clearProgram
  | .setled c v => setledProgram c v
  | .getled c => getledProgram c
  | .display => displayProgram n
  | .setglobaldc v => dcProgram n v

/-- The checks a command makes at issue, in the order of R185. -/
def State.checksOf (s : State) : Instr → List (Option FaultCode)
  | .init => [s.initCheck]
  | .clear => [s.readyCheck]
  | .setled c v => [s.readyCheck, s.channelCheck c, s.intensityCheck v]
  | .getled c => [s.readyCheck, s.channelCheck c]
  | .display => [s.readyCheck]
  | .setglobaldc v => [dcCheck v, s.readyCheck]

/-- The micro-operations of the command in progress that are done. -/
def State.done (s : State) : List MicroOp :=
  match s.own with
  | .idle => []
  | .busy i upc => (programOf s.cfg.numDrivers i).take upc

/-- The owner's next micro-operation. -/
def State.nextOp (s : State) : Option MicroOp :=
  match s.own with
  | .idle => none
  | .busy i upc => (programOf s.cfg.numDrivers i)[upc]?

/-- A command the block accepts in this state (R182 to R184, R73). -/
def State.accepts (i : Instr) (s : State) : Bool :=
  match i with
  | .init => decide (s.life = .uninit)
  | .clear => decide (s.life = .ready)
  | .setled c v =>
    decide (s.life = .ready) && decide (c < s.cfg.channels) && decide (v < 2 ^ s.cfg.resolutionBits)
  | .getled c => decide (s.life = .ready) && decide (c < s.cfg.channels)
  | .display => decide (s.life = .ready)
  | .setglobaldc v => decide (s.life = .ready) && decide (v < 64)

/-- The level a micro-operation leaves a line at, FB's contents given. -/
def MicroOp.levelAfter (m : Memory) (l : Line) (v : Level) : MicroOp → Level
  | .lset l' b => if l' = l then Level.ofBit b else v
  | .sinv b => if l = .sin then Level.ofBit b else v
  | .sinfb p => if l = .sin then Level.ofBit (Memory.bit m p) else v
  | _ => v

/-- The level a list of micro-operations leaves a line at, from the level before it. -/
def levelAfter (m : Memory) (l : Line) (v : Level) (ops : List MicroOp) : Level :=
  ops.foldl (MicroOp.levelAfter m l) v

/-- The bits the chain takes from a list of micro-operations: SIN's level at each write of 1 to SCLK (R124). -/
def sentBits (m : Memory) : Level → List MicroOp → List Bool
  | _, [] => []
  | v, .lset .sclk true :: ops => decide (v = .high) :: sentBits m v ops
  | v, op :: ops => sentBits m (op.levelAfter m .sin v) ops

/-- R67's positions: the owner is idle, at a wait, at an accessor, or at INIT's last micro-step. -/
def State.quiet (s : State) : Bool :=
  match s.own with
  | .idle => true
  | .busy _ _ =>
    match s.nextOp with
    | some .waitTp0 => true
    | some (.acc _) => true
    | some .lifeset => true
    | _ => false

/-- INIT is in progress, at micro-step upc or later. -/
def State.initFrom (upc : Nat) (s : State) : Prop := ∃ u, s.own = .busy .init u ∧ upc ≤ u

/-! ### What the commands compute -/

/-- The channel a command names (R183). -/
def channelOperand : Instr → Option Nat
  | .setled c _ => some c
  | .getled c => some c
  | _ => none

/-- The intensity a command carries (R184). -/
def intensityOperand : Instr → Option Nat
  | .setled _ v => some v
  | _ => none

/-- FB after channel c's field is written with v (R100): the two bytes of the field, each from its old content. -/
def fieldWritten (m : Memory) (c : Nat) (v : Field) : Memory :=
  Memory.write (Memory.write m (fieldByte c) (fieldFirstByte c v (Memory.read m (fieldByte c)))) (fieldByte c + 1)
    (fieldSecondByte c v (Memory.read m (fieldByte c + 1)))

/-- The bits of a dot-correction load: 16N copies of v, each most significant bit first (R142). -/
def dcStream (n v : Nat) : List Bool :=
  (List.range (16 * n)).flatMap fun _ => (List.range 6).map fun j => v.testBit (5 - j)

/-- The events of transmitted bits (R124). -/
def bitEvents (bits : List Bool) : List Event :=
  bits.flatMap fun b => [.set .sin b, .set .sclk true, .set .sclk false]

/-- The last 192N bits the chain took are the frame F, whenever one awaits its latch (R202). -/
def State.Pending (s : State) (frame : List Bool) : Prop :=
  s.tp = true → s.cfg.frameBits ≤ s.sr.length ∧ lastBits s.cfg.frameBits s.sr = frame

/-! ### The invariant -/

/-- The frame buffer's invariant: its canonical form, within its 24N bytes (R21). -/
structure State.FbOk (s : State) : Prop where
  canonical : Memory.wf s.fb = true
  within : Memory.below s.cfg.fbBytes s.fb = true

/-- R22: the low `12 - R` bits of every channel's field are zero. -/
def State.LowBitsZero (s : State) : Prop :=
  ∀ c f, s.fieldRead c = .ok f → f.toNat % 2 ^ (12 - s.cfg.resolutionBits) = 0

/-- R67 (shift exclusion): if TP = 1 the owner is outside every shift, and SCLK = 0, XLAT = 0 and VPRG = 0. -/
def State.ShiftExclusion (s : State) : Prop :=
  s.tp = true → s.quiet = true ∧ s.sclk = .low ∧ s.xlat = .low ∧ s.vprg = .low

/-- What holds between any two steps. -/
structure State.Inv (s : State) : Prop where
  /-- R8, R9. -/
  cfgLegal : s.cfg.legal = true
  /-- R21. -/
  fbOk : s.FbOk
  /-- R22. -/
  lowBits : s.LowBitsZero
  /-- R37, R103: every value returned is an intensity. -/
  respSmall : ∀ v ∈ s.resp, v.toNat < 2 ^ s.cfg.resolutionBits
  /-- R35, R181: the command in progress passed its checks, and upc is inside its micro-program. -/
  position : ∀ i u, s.own = .busy i u → s.accepts i = true ∧ u < (programOf s.cfg.numDrivers i).length
  /-- R175: nothing precedes INIT. -/
  beforeInit : s.life = .uninit → s.fb = [] ∧ s.resp = []
  /-- R39: before INIT is issued no line is driven and no flag set. -/
  fresh : s.life = .uninit → s.own = .idle →
    s.sclk = .undriven ∧ s.sin = .undriven ∧ s.xlat = .undriven ∧ s.blank = .undriven ∧ s.vprg = .undriven ∧
      s.tp = false ∧ s.np = false ∧ s.gsclkRun = false ∧ s.trace = [] ∧ s.sr = []
  /-- R28, R30, R32: SCLK, XLAT and VPRG are where the micro-program in progress left them, 0 between commands. -/
  lines : ∀ l, l = .sclk ∨ l = .xlat ∨ l = .vprg →
    s.line l = levelAfter s.fb l (if s.life = .ready then .low else .undriven) s.done
  /-- R171: INIT's pin configuration leaves every line driven. -/
  driven : s.life = .ready ∨ s.initFrom 5 → s.sin ≠ .undriven ∧ s.blank ≠ .undriven
  /-- R34: IE is set by INIT's IESET and never cleared. -/
  interrupt : s.ie = true ↔ s.life = .ready ∨ s.initFrom (288 * s.cfg.numDrivers + 13)
  /-- R33, R173: the grayscale clock runs between steps once INIT has configured the timers. -/
  clockRuns : s.life = .ready ∨ s.initFrom (288 * s.cfg.numDrivers + 12) → s.gsclkRun = true
  /-- R67. -/
  exclusion : s.tp = true → s.quiet = true ∧ (s.life = .ready ∨ s.nextOp = some .lifeset)
  /-- R124, R132: the bits the chain took last are those the micro-program in progress has sent. -/
  sent : ∀ i u, s.own = .busy i u → s.nextOp ≠ some .lifeset →
    ∃ v taken, s.sin = levelAfter s.fb .sin v s.done ∧ s.sr = taken ++ sentBits s.fb v s.done
  /-- R200. -/
  liveLengths : s.liveGs.length = s.cfg.frameBits ∧ s.liveDc.length = s.cfg.dcBits

/-! ### The observer reads the trace (`60_exceptions.md` R200) -/

/-- The write an event records. -/
def State.replayEvent (s : State) : Event → State
  | .set l b => s.driveLine l b
  | .gsclk b => s.driveGsclk b

/-- What an observer of the lines alone knows after a trace: the lines' levels, SR, LIVE_GS and LIVE_DC. -/
def replay (c : Config) (trace : List Event) : State := trace.foldl State.replayEvent (State.initial c)

/-- The lines and the chain are a function of the trace. -/
structure State.TraceOk (s : State) : Prop where
  lines : ∀ l, s.line l = (replay s.cfg s.trace).line l
  gsclk : s.gsclkRun = (replay s.cfg s.trace).gsclkRun
  sr : s.sr = (replay s.cfg s.trace).sr
  liveGs : s.liveGs = (replay s.cfg s.trace).liveGs
  liveDc : s.liveDc = (replay s.cfg s.trace).liveDc
  draws : s.draws = (replay s.cfg s.trace).draws

/-! ### Runs -/

/-- R233: every word issued, OWN = idle, TP = 0, FAULT = none. -/
def State.ended (s : State) : Prop := s.host = [] ∧ s.own = .idle ∧ s.tp = false ∧ s.fault = none

/-- R189: a schedule that lets each agent step again and again. -/
def FairSchedule (fires : Nat → Bool) : Prop :=
  ∀ n, (∃ m, n ≤ m ∧ fires m = true) ∧ ∃ m, n ≤ m ∧ fires m = false

/-! ### Conformance (`41_serial_shift.md` R128) -/

/-- What R128 keeps of a trace: the bits the chain takes, in order with the XLAT, BLANK, GSCLK and VPRG events. -/
inductive ContractEvent where
  | bit (taken : Bool)
  | event (e : Event)
deriving DecidableEq, Repr

/-- R128's view of a trace, from the levels of SCLK and SIN before it. -/
def contractView : Level → Level → List Event → List ContractEvent
  | _, _, [] => []
  | sclk, sin, .set .sclk true :: es =>
    if sclk = .low then .bit (decide (sin = .high)) :: contractView .high sin es else contractView .high sin es
  | _, sin, .set .sclk false :: es => contractView .low sin es
  | sclk, _, .set .sin b :: es => contractView sclk (Level.ofBit b) es
  | sclk, sin, e :: es => .event e :: contractView sclk sin es

/-- R128: a trace of another implementation conforms to one of the block. -/
def Conforms (trace other : List Event) : Prop :=
  contractView .undriven .undriven trace = contractView .undriven .undriven other

end Sys2Proof.Machine
end

