-- ==== Sys2Proof/Certificates/Slice0/Obligations.lean ====
section
/-! DEFINITION. The statements for the provers, by the files of spec/. -/

open Sys2Proof Sys2Proof.Machine

/-! ### Encoding (`30_encoding.md`) -/

/-- R75, R79: the decoder reads every well-formed command back from its word, with every operand. -/
def Obligations.DecodeEncodeAgree : Prop :=
  ∀ i : Instr, i.wf = true → decode (encode i) = .ok i ∧ decodeTableWord 32 (encode i).toNat = some i

/-- R75: a word that decodes is the word of the command it decodes to; so no two words spell one command. -/
def Obligations.EncodeDecodeAgree : Prop :=
  ∀ (w : Word) (i : Instr), decode w = .ok i → i.wf = true ∧ encode i = w

/-- R73, R74: which words fault at decode, with the fault recorded by the owner's issue step; SETLED has no reserved
bits, and a dot-correction value above 63 sets one (the spec's decision D3). That the faulting word is taken from the
host's program is the model's choice (log 2). -/
def Obligations.ReservedFieldsAndIllegalOpcodesFault : Prop :=
  (∀ w : Word,
    (slice w 31 28 = 0 ∨ 7 ≤ slice w 31 28 → decode w = .error .illegalOpcode) ∧
    ((slice w 31 28 = 1 ∨ slice w 31 28 = 2 ∨ slice w 31 28 = 5) → slice w 27 0 ≠ 0 →
      decode w = .error .reservedNonzero) ∧
    (slice w 31 28 = 4 → slice w 11 0 ≠ 0 → decode w = .error .reservedNonzero) ∧
    (slice w 31 28 = 6 → slice w 27 6 ≠ 0 → decode w = .error .reservedNonzero) ∧
    (slice w 31 28 = 3 → decode w = .ok (.setled (slice w 27 12) (slice w 11 0)))) ∧
  (∀ v, 64 ≤ v → v < 2 ^ 28 → decode (encode (.setglobaldc v)) = .error .reservedNonzero) ∧
  ∀ (s : State) (w : Word) (rest : List Word), s.fault = none → s.own = .idle → s.host = w :: rest →
    (decode w = .error .illegalOpcode →
      s.ownerStep = .next { s with host := rest, fault := some ⟨.illegalOpcode, w⟩ }) ∧
    (decode w = .error .reservedNonzero →
      s.ownerStep = .next { s with host := rest, fault := some ⟨.reservedNonzero, w⟩ })

/-- Words written out from the format of R70 and the table of R72 decode to the commands they stand for
(`95_test_vectors.md` section 3). -/
def Obligations.SampleWordsDecode : Prop :=
  decode 0x10000000 = .ok .init ∧ decode 0x20000000 = .ok .clear ∧ decode 0x30001123 = .ok (.setled 1 0x123) ∧
    decode 0x4000F000 = .ok (.getled 15) ∧ decode 0x50000000 = .ok .display ∧
    decode 0x6000003F = .ok (.setglobaldc 63) ∧ decode 0x3FFFFFFF = .ok (.setled 65535 4095)

/-- R79: the assembler's SETLED, GETLED and SETGLOBALDC, and the operands it refuses. -/
def Obligations.AssemblerEncodesOrRefuses : Prop :=
  (∀ c v, asmStatement "SETLED".toList [c, v] =
    if c < 65536 ∧ v < 4096 then some (.command (.setled c v)) else none) ∧
  (∀ c, asmStatement "GETLED".toList [c] = if c < 65536 then some (.command (.getled c)) else none) ∧
  (∀ v, asmStatement "SETGLOBALDC".toList [v] = if v < 64 then some (.command (.setglobaldc v)) else none) ∧
  (∀ c v, c < 65536 → v < 4096 → (encode (.setled c v)).toNat = 0x30000000 ||| (c <<< 12) ||| v) ∧
  (∀ c, c < 65536 → (encode (.getled c)).toNat = 0x40000000 ||| (c <<< 12)) ∧
  ∀ v, v < 64 → (encode (.setglobaldc v)).toNat = 0x60000000 ||| v

/-! ### The frame buffer (`20_memory.md`, `40_framebuffer.md`) -/

/-- R100: fieldRead and fieldWrite, byte by byte; fieldWrite changes no buffer bit outside 12c to 12c+11, and a field
reads back as written. -/
def Obligations.FieldReadAndFieldWrite : Prop :=
  ∀ (s : State) (c : Nat) (v : Field), s.FbOk → c < 16 * s.cfg.numDrivers →
    (12 * c % 8 = 0 → s.fieldRead c =
      .ok (Memory.read s.fb (12 * c / 8) ++ (Memory.read s.fb (12 * c / 8 + 1)).extractLsb' 4 4)) ∧
    (12 * c % 8 ≠ 0 → s.fieldRead c =
      .ok ((Memory.read s.fb (12 * c / 8)).extractLsb' 0 4 ++ Memory.read s.fb (12 * c / 8 + 1))) ∧
    ∃ m, s.fieldWrite c v = .ok { s with fb := m } ∧
      (12 * c % 8 = 0 → Memory.read m (12 * c / 8) = v.extractLsb' 4 8 ∧
        Memory.read m (12 * c / 8 + 1) = v.extractLsb' 0 4 ++ (Memory.read s.fb (12 * c / 8 + 1)).extractLsb' 0 4) ∧
      (12 * c % 8 ≠ 0 → Memory.read m (12 * c / 8) =
          (Memory.read s.fb (12 * c / 8)).extractLsb' 4 4 ++ v.extractLsb' 8 4 ∧
        Memory.read m (12 * c / 8 + 1) = v.extractLsb' 0 8) ∧
      (∀ p, p < 12 * c ∨ 12 * c + 12 ≤ p → Memory.bit m p = Memory.bit s.fb p) ∧
      ({ s with fb := m } : State).fieldRead c = .ok v

/-- R52: field bit 11 - j of channel c is buffer bit 12c + j (derived in the spec from R53). -/
def Obligations.FieldBitsAreBufferBits : Prop :=
  ∀ (s : State) (c : Nat), c < s.cfg.channels →
    ∃ f, s.fieldRead c = .ok f ∧ ∀ j, j < 12 → Memory.bit s.fb (12 * c + j) = f.getLsbD (11 - j)

/-- R101, R102: SETLED's own micro-step completes, with the field's two bytes written from the scaled intensity. -/
def Obligations.SetledStoresTheIntensity : Prop :=
  ∀ (s : State) (c v : Nat), s.fault = none → s.own = .busy (.setled c v) 0 → c < s.cfg.channels →
    exec (.setled c v) s = .next { s with fb := fieldWritten s.fb c (storedValue s.cfg v), own := .idle }

/-- R102, R103: the stored value is v * 2^(12-R), below 4096 with its low 12 - R bits zero, and reading shifts it back. -/
def Obligations.StoredValueScales : Prop :=
  ∀ (c : Config) (v : Nat), c.legal = true → v < 2 ^ c.resolutionBits →
    (storedValue c v).toNat = v * 2 ^ (12 - c.resolutionBits) ∧
    (storedValue c v).toNat % 2 ^ (12 - c.resolutionBits) = 0 ∧
    (intensityOf c (storedValue c v)).toNat = v

/-- R103: GETLED's own micro-step completes, appending the field shifted right by 12 - R; FB is not changed. -/
def Obligations.GetledReturnsTheIntensity : Prop :=
  ∀ (s : State) (c : Nat), s.fault = none → s.own = .busy (.getled c) 0 → c < s.cfg.channels →
    ∃ f, s.fieldRead c = .ok f ∧
      exec (.getled c) s = .next { s with resp := s.resp ++ [f >>> (12 - s.cfg.resolutionBits)], own := .idle }

/-- R106: CLEAR's own micro-step completes and leaves every byte of FB 0x00. -/
def Obligations.ClearZeroesTheBuffer : Prop :=
  ∀ s : State, s.FbOk → s.fault = none → s.own = .busy .clear 0 →
    exec .clear s = .next { s with fb := [], own := .idle } ∧
      ∀ i, i < s.cfg.fbBytes → ({ s with fb := [], own := .idle } : State).memRead i = .ok 0

/-- R104: a SETLED c, v and then a GETLED c, issued as words and run by the owner, append v. -/
def Obligations.SetledThenGetledReturnsTheValue : Prop :=
  ∀ (s : State) (c v : Nat), s.FbOk → s.cfg.legal = true → s.fault = none → s.own = .idle → s.life = .ready →
    c < s.cfg.channels → v < 2 ^ s.cfg.resolutionBits →
    s.host = [encode (.setled c v), encode (.getled c)] →
    ∃ t, ownerRun 4 s = .next t ∧ t.resp = s.resp ++ [BitVec.ofNat 12 v] ∧ t.own = .idle ∧ t.fault = none

/-- R105: SETLED c leaves every other channel's field as it was. -/
def Obligations.SetledLeavesOtherChannels : Prop :=
  ∀ (s t : State) (c d v : Nat), s.FbOk → c ≠ d → d < s.cfg.channels → exec (.setled c v) s = .next t →
    t.fieldRead d = s.fieldRead d

/-- R107: the accessors write no line, no flag and no event, do not read TP or NP, never wait, and reach the chain in no
way; every byte of FB outside the field's two (SETLED), outside the buffer (CLEAR) or at all (GETLED) is unchanged. -/
def Obligations.AccessorsHaveNoHardwareEffect : Prop :=
  ∀ (i : Instr) (s t : State), (i = .clear ∨ (∃ c v, i = .setled c v) ∨ ∃ c, i = .getled c) → exec i s = .next t →
    t.cfg = s.cfg ∧ t.tp = s.tp ∧ t.np = s.np ∧ t.life = s.life ∧ (∀ l, t.line l = s.line l) ∧
    t.gsclkRun = s.gsclkRun ∧ t.ie = s.ie ∧ t.trace = s.trace ∧ t.sr = s.sr ∧ t.liveGs = s.liveGs ∧
    t.liveDc = s.liveDc ∧ t.host = s.host ∧ t.tick = s.tick ∧ t.draws = s.draws ∧
    (s.own ≠ .idle → t.own = .idle ∧ t.fault = s.fault) ∧
    (∀ a b, exec i { s with tp := a, np := b } = .next { t with tp := a, np := b }) ∧
    (∀ c v, i = .setled c v → t.resp = s.resp ∧
      ∀ k, k ≠ fieldByte c → k ≠ fieldByte c + 1 → Memory.read t.fb k = Memory.read s.fb k) ∧
    (i = .clear → t.resp = s.resp ∧ ∀ k, s.cfg.fbBytes ≤ k → Memory.read t.fb k = Memory.read s.fb k) ∧
    (∀ c, i = .getled c → t.fb = s.fb)

/-! ### Issue and faults (`60_exceptions.md` section 1) -/

/-- R182 to R185: the owner's issue step on any word: the first check that fails is recorded in FAULT with the word,
and a command that passes them all starts at micro-step 0 (the spec's decisions D4, D5 and D26). That a faulting word is
taken from the host's program is the model's choice (log 2). -/
def Obligations.IssueChecksInOrder : Prop :=
  ∀ (s : State) (w : Word) (rest : List Word), s.fault = none → s.own = .idle → s.host = w :: rest →
    (∀ e, decode w = .error e →
      s.ownerStep = .next { s with host := rest, fault := some ⟨decodeFaultCode e, w⟩ }) ∧
    ∀ i, decode w = .ok i → s.ownerStep = .next (
      if i = .init ∧ s.life = .ready then { s with host := rest, fault := some ⟨.reinit, w⟩ }
      else if i ≠ .init ∧ s.life = .uninit then { s with host := rest, fault := some ⟨.notInitialised, w⟩ }
      else if (channelOperand i).any (fun c => decide (16 * s.cfg.numDrivers ≤ c)) = true then
        { s with host := rest, fault := some ⟨.channelRange, w⟩ }
      else if (intensityOperand i).any (fun v => decide (2 ^ s.cfg.resolutionBits ≤ v)) = true then
        { s with host := rest, fault := some ⟨.intensityRange, w⟩ }
      else { s with host := rest, own := .busy i 0 })

/-- R36: FAULT is none at reset; once it is set no agent steps, so nothing clears it. -/
def Obligations.FaultIsSticky : Prop :=
  (∀ c, (State.initial c).fault = none) ∧
  ∀ (s : State) (f : FaultRecord), s.fault = some f →
    (∀ fires, stepWith fires s = .fault (.halted f)) ∧ step s = .fault (.halted f) ∧
      ∀ i, exec i s = .fault (.halted f)

/-- R181: a word whose issue faults changes nothing but FAULT, which records the word; no command faults after its
issue (the host's word is taken from the program, log 2). -/
def Obligations.FaultingCommandChangesOnlyFault : Prop :=
  ∀ (s t : State) (fires : Bool), stepWith fires s = .next t → t.fault ≠ none →
    s.own = .idle ∧ ∃ w code, s.host = w :: t.host ∧ t.fault = some ⟨code, w⟩ ∧
      t = { s with fault := t.fault, host := t.host, tick := s.tick + 1 }

/-- R198, R221: a second command while another is in progress is refused (the model's refusal, log 10). -/
def Obligations.SecondCallerIsRefused : Prop :=
  ∀ (s : State) (i j : Instr) (u : Nat), s.fault = none → s.own = .busy j u → i ≠ j →
    exec i s = .refused .concurrentCaller

/-! ### Micro-programs (`41_serial_shift.md`, `42_dot_correction.md`, `44_init.md`) -/

/-- R120: every command in progress performs its micro-program's next operation, and OWN advances, to idle at the
micro-program's length. -/
def Obligations.MicroStepPerformsTheNextOperation : Prop :=
  ∀ (i : Instr) (s t : State) (u : Nat) (op : MicroOp), s.fault = none → s.own = .busy i u →
    (programOf s.cfg.numDrivers i)[u]? = some op → (op = .waitTp0 → s.tp = false) → op.run s = .ok t →
    exec i s = .next { t with
      own := if u + 1 = (programOf s.cfg.numDrivers i).length then .idle else .busy i (u + 1) }

/-- R129, R141, R170: the lengths of the micro-programs (derived in the spec). -/
def Obligations.MicroProgramLengths : Prop :=
  ∀ n v, (displayProgram n).length = 576 * n + 3 ∧ (dcProgram n v).length = 288 * n + 6 ∧
    (initProgram n).length = 864 * n + 17

/-- R123, R125, R126: SHIFT's micro-operations, most significant bit first, one event each; DISPLAY's reading of the
bit from FB drives the same level. -/
def Obligations.ShiftSendsMostSignificantBitFirst : Prop :=
  (∀ x k, (shift x k).length = 3 * k ∧ ∀ j, j < k →
    (shift x k)[3 * j]? = some (.sinv (x.testBit (k - 1 - j))) ∧
    (shift x k)[3 * j + 1]? = some (.lset .sclk true) ∧ (shift x k)[3 * j + 2]? = some (.lset .sclk false)) ∧
  (∀ x k op s t, op ∈ shift x k → op.run s = .ok t → t.trace.length = s.trace.length + 1) ∧
  (∀ (s : State) p, p < s.cfg.frameBits → (MicroOp.sinfb p).run s = (MicroOp.sinv (Memory.bit s.fb p)).run s) ∧
  (∀ x, shift8 x = shift x 8 ∧ (shift8 x).length = 24 ∧ shift6 x = shift x 6 ∧ (shift6 x).length = 18) ∧
  (shift8 0xA5).filterMap (fun op => match op with | .sinv b => some b | _ => none) =
    [true, false, true, false, false, true, false, true] ∧
  (shift6 32).filterMap (fun op => match op with | .sinv b => some b | _ => none) =
    [true, false, false, false, false, false]

/-- R129, R130: DISPLAY's micro-steps, each completing. -/
def Obligations.DisplayMicroSteps : Prop :=
  ∀ s : State, s.fault = none →
    (s.own = .busy .display 0 → s.tp = false → exec .display s = .next { s with own := .busy .display 1 }) ∧
    (s.own = .busy .display 1 → exec .display s = .next { s.driveLine .vprg false with own := .busy .display 2 }) ∧
    (∀ p, p < 192 * s.cfg.numDrivers →
      (s.own = .busy .display (2 + 3 * p) → exec .display s =
        .next { s.driveLine .sin (Memory.bit s.fb p) with own := .busy .display (3 + 3 * p) }) ∧
      (s.own = .busy .display (3 + 3 * p) → exec .display s =
        .next { s.driveLine .sclk true with own := .busy .display (4 + 3 * p) }) ∧
      (s.own = .busy .display (4 + 3 * p) → exec .display s =
        .next { s.driveLine .sclk false with own := .busy .display (5 + 3 * p) })) ∧
    (s.own = .busy .display (576 * s.cfg.numDrivers + 2) → exec .display s =
      .next { s with tp := true, own := .idle })

/-- R130 to R133: DISPLAY from its first micro-step to its last with no firing between: VPRG 0, the 192N buffer bits of
the frame sent in order, TP set, OWN idle; FB and everything else as before. -/
def Obligations.DisplayShiftsTheWholeFrame : Prop :=
  ∀ s : State, s.cfg.legal = true → s.fault = none → s.own = .busy .display 0 → s.tp = false → s.sclk = .low →
    ownerRun (576 * s.cfg.numDrivers + 3) s = .next { s with
      vprg := .low
      sin := Level.ofBit (Memory.bit s.fb (192 * s.cfg.numDrivers - 1))
      tp := true
      own := .idle
      sr := s.sr ++ s.frame
      trace := s.trace ++ .set .vprg false :: bitEvents s.frame
      tick := s.tick + (576 * s.cfg.numDrivers + 3) }

/-- R140, R141: SETGLOBALDC's micro-steps, each completing. -/
def Obligations.SetglobaldcMicroSteps : Prop :=
  ∀ (s : State) (v : Nat), s.fault = none →
    (s.own = .busy (.setglobaldc v) 0 → s.tp = false →
      exec (.setglobaldc v) s = .next { s with own := .busy (.setglobaldc v) 1 }) ∧
    (s.own = .busy (.setglobaldc v) 1 →
      exec (.setglobaldc v) s = .next { s.driveLine .vprg true with own := .busy (.setglobaldc v) 2 }) ∧
    (∀ q, q < 96 * s.cfg.numDrivers →
      (s.own = .busy (.setglobaldc v) (2 + 3 * q) → exec (.setglobaldc v) s =
        .next { s.driveLine .sin (v.testBit (5 - q % 6)) with own := .busy (.setglobaldc v) (3 + 3 * q) }) ∧
      (s.own = .busy (.setglobaldc v) (3 + 3 * q) → exec (.setglobaldc v) s =
        .next { s.driveLine .sclk true with own := .busy (.setglobaldc v) (4 + 3 * q) }) ∧
      (s.own = .busy (.setglobaldc v) (4 + 3 * q) → exec (.setglobaldc v) s =
        .next { s.driveLine .sclk false with own := .busy (.setglobaldc v) (5 + 3 * q) })) ∧
    (s.own = .busy (.setglobaldc v) (288 * s.cfg.numDrivers + 2) → exec (.setglobaldc v) s =
      .next { s.driveLine .xlat true with own := .busy (.setglobaldc v) (288 * s.cfg.numDrivers + 3) }) ∧
    (s.own = .busy (.setglobaldc v) (288 * s.cfg.numDrivers + 3) → exec (.setglobaldc v) s =
      .next { s.driveLine .xlat false with own := .busy (.setglobaldc v) (288 * s.cfg.numDrivers + 4) }) ∧
    (s.own = .busy (.setglobaldc v) (288 * s.cfg.numDrivers + 4) → exec (.setglobaldc v) s =
      .next { s.driveLine .vprg false with own := .busy (.setglobaldc v) (288 * s.cfg.numDrivers + 5) }) ∧
    (s.own = .busy (.setglobaldc v) (288 * s.cfg.numDrivers + 5) → exec (.setglobaldc v) s =
      .next { s with np := true, own := .idle })

/-- R140, R142: SETGLOBALDC from its first micro-step to its last with no firing between: 16N copies of v sent and
latched as dot correction, VPRG back to 0, NP set, OWN idle. -/
def Obligations.SetglobaldcLoadsEveryChannel : Prop :=
  ∀ (s : State) (v : Nat), s.cfg.legal = true → s.fault = none → s.own = .busy (.setglobaldc v) 0 → s.tp = false →
    s.sclk = .low → s.xlat = .low →
    ownerRun (288 * s.cfg.numDrivers + 6) s = .next { s with
      vprg := .low
      sin := Level.ofBit (v.testBit 0)
      np := true
      own := .idle
      sr := s.sr ++ dcStream s.cfg.numDrivers v
      liveDc := dcStream s.cfg.numDrivers v
      trace := s.trace ++ .set .vprg true :: bitEvents (dcStream s.cfg.numDrivers v) ++
        [.set .xlat true, .set .xlat false, .set .vprg false]
      tick := s.tick + (288 * s.cfg.numDrivers + 6) }

/-- R170 to R176: INIT's micro-steps, each completing; parts 3 and 6 are SETGLOBALDC 63's and DISPLAY's. -/
def Obligations.InitMicroSteps : Prop :=
  ∀ s : State, s.fault = none →
    (s.own = .busy .init 0 → exec .init s = .next { s.driveLine .sclk false with own := .busy .init 1 }) ∧
    (s.own = .busy .init 1 → exec .init s = .next { s.driveLine .sin false with own := .busy .init 2 }) ∧
    (s.own = .busy .init 2 → exec .init s = .next { s.driveLine .xlat false with own := .busy .init 3 }) ∧
    (s.own = .busy .init 3 → exec .init s = .next { s.driveLine .vprg false with own := .busy .init 4 }) ∧
    (s.own = .busy .init 4 → exec .init s = .next { s.driveLine .blank true with own := .busy .init 5 }) ∧
    (∀ u, u < 288 * s.cfg.numDrivers + 6 → s.own = .busy .init (5 + u) → s.tp = false →
      ∃ t, exec (.setglobaldc 63) { s with own := .busy (.setglobaldc 63) u } = .next t ∧
        exec .init s = .next { t with own := .busy .init (6 + u) }) ∧
    (s.own = .busy .init (288 * s.cfg.numDrivers + 11) → exec .init s =
      .next { s.driveGsclk true with own := .busy .init (288 * s.cfg.numDrivers + 12) }) ∧
    (s.own = .busy .init (288 * s.cfg.numDrivers + 12) → exec .init s =
      .next { s with ie := true, own := .busy .init (288 * s.cfg.numDrivers + 13) }) ∧
    (∀ u, u < 576 * s.cfg.numDrivers + 3 → s.own = .busy .init (288 * s.cfg.numDrivers + 13 + u) → s.tp = false →
      ∃ t, exec .display { s with own := .busy .display u } = .next t ∧
        exec .init s = .next { t with own := .busy .init (288 * s.cfg.numDrivers + 14 + u) }) ∧
    (s.own = .busy .init (864 * s.cfg.numDrivers + 16) → exec .init s =
      .next { s with life := .ready, own := .idle })

/-- R170, R177: INIT issued as the first word after create, run with no firing in it: 864N+17 micro-steps and
864N+11 events later the block is ready, the zero frame is pending and the chain holds 63 in every DC field. -/
def Obligations.InitBringsTheBlockToOperation : Prop :=
  ∀ (c : Config) (rest : List Word), c.legal = true →
    ∃ t, ownerRun (864 * c.numDrivers + 18) { State.initial c with host := 0x10000000 :: rest } = .next t ∧
      t.cfg = c ∧ t.fb = [] ∧ t.tp = true ∧ t.np = true ∧ t.life = .ready ∧ t.sclk = .low ∧ t.sin = .low ∧
      t.xlat = .low ∧ t.blank = .high ∧ t.vprg = .low ∧ t.gsclkRun = true ∧ t.ie = true ∧ t.own = .idle ∧
      t.fault = none ∧ t.resp = [] ∧ t.trace.length = 864 * c.numDrivers + 11 ∧ t.host = rest ∧
      t.sr = List.replicate (96 * c.numDrivers) true ++ List.replicate (192 * c.numDrivers) false ∧
      t.liveGs = (State.initial c).liveGs ∧ t.liveDc = List.replicate (96 * c.numDrivers) true

/-- R121: a wait with TP = 1 holds, changing nothing; the firing that latches lifts it. -/
def Obligations.WaitHoldsUntilTheLatch : Prop :=
  ∀ (s : State) (i : Instr), s.fault = none → s.own = .busy i 0 → (i = .display ∨ ∃ v, i = .setglobaldc v) →
    s.tp = true → s.ie = true →
    exec i s = .next s ∧ stepWith false s = .next s.tickOn ∧
    ∃ t, stepWith true s = .next t ∧ t.tp = false ∧ t.own = .busy i 0 ∧
      stepWith false t = .next { t with own := .busy i 1, tick := t.tick + 1 }

/-- The frame of the shifting commands, for every micro-step that completes: what each leaves unchanged, every byte of
memory included (R130, R140, R170). -/
def Obligations.ShiftingCommandsFrame : Prop :=
  ∀ (i : Instr) (s t : State), (i = .init ∨ i = .display ∨ ∃ v, i = .setglobaldc v) → exec i s = .next t →
    t.cfg = s.cfg ∧ (∀ k, Memory.read t.fb k = Memory.read s.fb k) ∧ t.fb = s.fb ∧ t.resp = s.resp ∧
    t.host = s.host ∧ t.tick = s.tick ∧ (s.own ≠ .idle → t.fault = s.fault) ∧
    (i = .display → t.np = s.np ∧ t.life = s.life ∧ t.xlat = s.xlat ∧ t.blank = s.blank ∧ t.ie = s.ie ∧
      t.gsclkRun = s.gsclkRun ∧ t.liveGs = s.liveGs ∧ t.liveDc = s.liveDc) ∧
    ((∃ v, i = .setglobaldc v) → t.tp = s.tp ∧ t.life = s.life ∧ t.blank = s.blank ∧ t.ie = s.ie ∧
      t.gsclkRun = s.gsclkRun)

/-! ### The interrupt (`43_latch_blank.md`, `60_exceptions.md` section 2) -/

/-- R151, R154: the two ends of a firing, and nothing else changed by either: that restarting the periodic timer changes
no modelled state is the spec's decision D28. -/
def Obligations.IsrEntryAndExit : Prop :=
  ∀ s : State,
    s.isrEntry = { s with
      blank := .high
      gsclkRun := false
      trace := s.trace ++ [.set .blank true, .gsclk false] } ∧
    s.isrExit = { s with
      blank := .low
      gsclkRun := true
      trace := s.trace ++ [.set .blank false, .gsclk true] }

/-- R152: the latch decision, with R153's pulse when it is owed, which does not write SIN (the spec's decision D19,
log 17); in every state the invariant holds of, VPRG is 0 when it latches. -/
def Obligations.IsrLatchDecision : Prop :=
  ∀ s : State,
    (s.tp = false → s.isrLatch = s) ∧
    (s.tp = true → s.np = false → s.isrLatch = { (s.driveLine .xlat true).driveLine .xlat false with tp := false }) ∧
    (s.tp = true → s.np = true → s.isrLatch = {
        (({ (s.driveLine .xlat true).driveLine .xlat false with tp := false } : State).driveLine .sclk
          true).driveLine .sclk false with np := false } ∧
      s.isrLatch.trace = s.trace ++ [.set .xlat true, .set .xlat false, .set .sclk true, .set .sclk false]) ∧
    (s.Inv → s.tp = true → s.vprg = .low)

/-- R156 and `95_test_vectors.md` section 6: the four cases of one firing by (TP, NP), with what the chain takes and
latches when its lines stand as R67 says. -/
def Obligations.IsrFourCases : Prop :=
  ∀ s : State,
    s.isr.tp = false ∧ s.isr.np = (s.np && !s.tp) ∧ s.isr.blank = .low ∧ s.isr.gsclkRun = true ∧
    s.isr.trace = s.trace ++ [.set .blank true, .gsclk false] ++
      (if s.tp then [.set .xlat true, .set .xlat false] else []) ++
      (if s.tp && s.np then [.set .sclk true, .set .sclk false] else []) ++ [.set .blank false, .gsclk true] ∧
    (s.tp = false → s.isr.sr = s.sr ∧ s.isr.liveGs = s.liveGs ∧ s.isr.liveDc = s.liveDc) ∧
    (s.tp = true → s.sclk = .low → s.xlat = .low → s.vprg = .low → s.cfg.frameBits ≤ s.sr.length →
      s.isr.liveGs = lastBits s.cfg.frameBits s.sr ∧ s.isr.liveDc = s.liveDc ∧
      (s.np = false → s.isr.sr = s.sr) ∧
      (s.np = true → s.sin = .high → s.isr.sr = s.sr ++ [true]) ∧
      (s.np = true → s.sin = .low → s.isr.sr = s.sr ++ [false]))

/-- R158, R187: what a firing never touches. -/
def Obligations.IsrFrame : Prop :=
  ∀ s : State, s.isr.cfg = s.cfg ∧ s.isr.fb = s.fb ∧ (∀ k, Memory.read s.isr.fb k = Memory.read s.fb k) ∧
    s.isr.sin = s.sin ∧ s.isr.vprg = s.vprg ∧ s.isr.ie = s.ie ∧ s.isr.life = s.life ∧ s.isr.own = s.own ∧
    s.isr.resp = s.resp ∧ s.isr.fault = s.fault ∧ s.isr.host = s.host ∧ s.isr.tick = s.tick ∧
    (s.tp = false → s.isr.np = s.np ∧ s.isr.sclk = s.sclk ∧ s.isr.xlat = s.xlat ∧ s.isr.draws = s.draws)

/-- R186, R211: the interrupt may take the next step exactly when it is enabled, whatever the owner is doing. -/
def Obligations.InterruptFiresBetweenAnyOwnerSteps : Prop :=
  ∀ s : State, s.fault = none →
    (s.ie = true → stepWith true s = .next { s with tick := s.tick + 1 }.isr) ∧
    (∀ fires, s.ie = false → stepWith fires s = ({ s with tick := s.tick + 1 } : State).ownerStep) ∧
    stepWith false s = ({ s with tick := s.tick + 1 } : State).ownerStep

/-- R188: after a firing that does not latch, the owner's next step is the one it would have taken: OWN, FB, RESP,
FAULT, the flags and every line but BLANK end the same. -/
def Obligations.OwnerResumesWhereItWas : Prop :=
  ∀ (s t : State) (i : Instr), s.tp = false → exec i s = .next t →
    ∃ t', exec i s.isr = .next t' ∧ t'.own = t.own ∧ t'.fb = t.fb ∧ t'.resp = t.resp ∧ t'.fault = t.fault ∧
      t'.tp = t.tp ∧ t'.np = t.np ∧ t'.life = t.life ∧ t'.ie = t.ie ∧ t'.sclk = t.sclk ∧ t'.sin = t.sin ∧
      t'.xlat = t.xlat ∧ t'.vprg = t.vprg ∧ t'.sr = t.sr ∧ t'.liveGs = t.liveGs ∧ t'.liveDc = t.liveDc ∧
      t'.host = t.host

/-! ### The step and reset (`10_state.md` section 8, `70_reset_and_hazards.md`) -/

/-- A step runs the decoded instruction: of the host's next word when the owner is idle, of the command in progress
when it is not; around exec the step takes the word from the program and moves `tick` (logs 2 and 3). The choice of the
interrupt is free, so the statement holds whichever it is. That an idle owner with no word left answers a next state in
which only `tick` has moved is the model's choice (log 4). -/
def Obligations.StepRunsTheDecodedInstruction : Prop :=
  ∀ s : State, s.fault = none →
    (∀ i u, s.own = .busy i u → step s =
      if s.ie && Config.isrFires s.tick then .next { s with tick := s.tick + 1 }.isr
      else exec i { s with tick := s.tick + 1 }) ∧
    (∀ w rest i, s.own = .idle → s.host = w :: rest → decode w = .ok i → i.wf = true → step s =
      if s.ie && Config.isrFires s.tick then .next { s with tick := s.tick + 1 }.isr
      else exec i { s with
        tick := s.tick + 1
        host := rest }) ∧
    (s.own = .idle → s.host = [] → step s =
      if s.ie && Config.isrFires s.tick then .next { s with tick := s.tick + 1 }.isr
      else .next { s with tick := s.tick + 1 })

/-- R39: the reset values, for an instance of any configuration. -/
def Obligations.ResetValues : Prop :=
  ∀ c : Config, ∀ s, s = State.initial c →
    s.cfg = c ∧ (∀ i, i < 24 * c.numDrivers → s.memRead i = .ok 0x00) ∧ s.tp = false ∧ s.np = false ∧
    s.life = .uninit ∧ s.sclk = .undriven ∧ s.sin = .undriven ∧ s.xlat = .undriven ∧ s.blank = .undriven ∧
    s.vprg = .undriven ∧ s.gsclkRun = false ∧ s.ie = false ∧ s.own = .idle ∧ s.fault = none ∧ s.resp = [] ∧
    s.trace = []

/-- R8, R9: create's ranges and default; the parameters are fixed at construction. The range of N is the spec's decision
D6. -/
def Obligations.CreateFixesTheParameters : Prop :=
  (∀ n r, (1 ≤ n ∧ n ≤ 4096) ∧ (1 ≤ r ∧ r ≤ 12) → ∃ s, State.create n r = some s ∧ s.cfg = ⟨n, r⟩) ∧
  (∀ n r, ¬ ((1 ≤ n ∧ n ≤ 4096) ∧ (1 ≤ r ∧ r ≤ 12)) → State.create n r = none) ∧
  (∀ n, State.create n = State.create n 12) ∧
  ∀ (s t : State) (fires : Bool), stepWith fires s = .next t → t.cfg = s.cfg

/-! ### Invariants and whole-machine rules -/

/-- The invariant holds right after create, whatever the program, and at `State.reset`. -/
def Obligations.InvariantHoldsAtReset : Prop :=
  (∀ (c : Config) (program : List Word), c.legal = true → ({ State.initial c with host := program } : State).Inv) ∧
    State.reset.Inv

/-- Every step of either agent, in every interleaving, keeps the invariant; so does the machine's step. -/
def Obligations.EveryStepKeepsTheInvariant : Prop :=
  ∀ s t : State, s.Inv → (∀ fires, stepWith fires s = .next t → t.Inv) ∧ (step s = .next t → t.Inv)

/-- R21: every step keeps the frame buffer in its canonical form, within its 24N bytes, from any state that has it. -/
def Obligations.EveryStepKeepsTheBufferCanonical : Prop :=
  ∀ (s t : State) (fires : Bool), s.FbOk → stepWith fires s = .next t → t.FbOk

/-- R130, R155: no fault during execution: from a state the invariant holds of, either agent's step answers a next
state. Where the owner holds, or is idle with no word left, the spec gives it no step, and the next state is the model's
choice (log 4). -/
def Obligations.InvariantStatesAlwaysStep : Prop :=
  ∀ (s : State) (fires : Bool), s.Inv → s.fault = none → ∃ t, stepWith fires s = .next t

/-- R67, shift exclusion, in every reachable state. -/
def Obligations.ReachableShiftExclusion : Prop :=
  ∀ s : State, Reachable s → s.ShiftExclusion

/-- R22, in every reachable state. -/
def Obligations.ReachableLowBitsZero : Prop :=
  ∀ s : State, Reachable s → s.LowBitsZero

/-- R202, as an invariant with the frame awaiting its latch: every step keeps it, LIVE_GS changes only at the ISR's
latch, and becomes there exactly the frame of the most recent DISPLAY. -/
def Obligations.PendingFrameIsWhatGetsLatched : Prop :=
  ∀ (s t : State) (fires : Bool) (frame : List Bool), s.Inv → s.Pending frame → stepWith fires s = .next t →
    t.Pending (if t.tp && !s.tp then s.frame else frame) ∧
    t.liveGs = if fires && s.ie && s.tp then frame else s.liveGs

/-- R202 in every run: at an ISR latch LIVE_GS becomes the frame of the most recent DISPLAY, and no other step changes
it. -/
def Obligations.FramesArePublishedWhole : Prop :=
  ∀ (s t : State) (fires : Bool) (frame : Option (List Bool)), ReachableWith s frame →
    stepWith fires s = .next t →
    if fires && s.ie && s.tp then frame = some t.liveGs else t.liveGs = s.liveGs

/-- R203, R224: LIVE_DC changes only at the latch of SETGLOBALDC v (or INIT's, v = 63), and becomes there 16N copies of
v. -/
def Obligations.DotCorrectionLatchesItsOwnValue : Prop :=
  ∀ (s t : State) (fires : Bool), s.Inv → stepWith fires s = .next t →
    (∀ v, s.own = .busy (.setglobaldc v) (288 * s.cfg.numDrivers + 2) → (s.ie && fires) = false →
      t.liveDc = dcStream s.cfg.numDrivers v) ∧
    (s.own = .busy .init (288 * s.cfg.numDrivers + 7) → (s.ie && fires) = false →
      t.liveDc = dcStream s.cfg.numDrivers 63) ∧
    ((s.ie && fires) = true ∨ ((∀ v, s.own ≠ .busy (.setglobaldc v) (288 * s.cfg.numDrivers + 2)) ∧
      s.own ≠ .busy .init (288 * s.cfg.numDrivers + 7)) → t.liveDc = s.liveDc)

/-- R132: no step while DISPLAY is in progress changes FB, so all 192N bits come from one content. -/
def Obligations.BufferIsConstantDuringDisplay : Prop :=
  ∀ (s t : State) (fires : Bool) (u : Nat), s.own = .busy .display u → stepWith fires s = .next t →
    t.fb = s.fb ∧ t.frame = s.frame

/-- R23: TP is set by DISPLAY's last micro-step (INIT's display included), cleared by the ISR's latch, waited for by
DISPLAY and SETGLOBALDC, and written by no other step. That exec of a holding wait answers the same state is the model's
choice (log 4; the spec's decision D13). -/
def Obligations.TransferPendingWriters : Prop :=
  (∀ c, (State.initial c).tp = false) ∧
  (∀ (s t : State) (fires : Bool), stepWith fires s = .next t →
    (s.tp = false → t.tp = true → (s.ie && fires) = false ∧
      (s.own = .busy .display (576 * s.cfg.numDrivers + 2) ∨ s.own = .busy .init (864 * s.cfg.numDrivers + 15))) ∧
    (s.tp = true → t.tp = false → s.ie = true ∧ fires = true) ∧
    (s.ie = true → fires = true → t.tp = false)) ∧
  (∀ s : State, s.fault = none → s.own = .busy .display (576 * s.cfg.numDrivers + 2) →
    exec .display s = .next { s with tp := true, own := .idle }) ∧
  ∀ (s : State) (v : Nat), s.fault = none → s.tp = true →
    (s.own = .busy .display 0 → exec .display s = .next s) ∧
    (s.own = .busy (.setglobaldc v) 0 → exec (.setglobaldc v) s = .next s)

/-- R24: NP is set by SETGLOBALDC's last micro-step (INIT's included), cleared only by a firing that also latches, after
its extra clock pulse, and read by the ISR alone. -/
def Obligations.NeedPulseWriters : Prop :=
  (∀ c, (State.initial c).np = false) ∧
  (∀ (s t : State) (fires : Bool), stepWith fires s = .next t →
    (s.np = false → t.np = true → (s.ie && fires) = false ∧
      ((∃ v, s.own = .busy (.setglobaldc v) (288 * s.cfg.numDrivers + 5)) ∨
        s.own = .busy .init (288 * s.cfg.numDrivers + 10))) ∧
    (s.np = true → t.np = false → s.ie = true ∧ fires = true ∧ s.tp = true)) ∧
  (∀ (s : State) (v : Nat), s.fault = none → s.own = .busy (.setglobaldc v) (288 * s.cfg.numDrivers + 5) →
    exec (.setglobaldc v) s = .next { s with np := true, own := .idle }) ∧
  (∀ s : State, s.tp = true → s.isr.np = false ∧ (s.np = true → s.isr.trace = s.trace ++
    [.set .blank true, .gsclk false, .set .xlat true, .set .xlat false, .set .sclk true, .set .sclk false,
      .set .blank false, .gsclk true])) ∧
  ∀ (i : Instr) (s t : State) (b : Bool), exec i s = .next t →
    ∃ t', exec i { s with np := b } = .next t' ∧ { t' with np := t.np } = t

/-- R174, R34: INIT's IESET enables the interrupt, the ISR may fire from the next step on, and IE is never cleared. -/
def Obligations.InterruptEnableIsForEver : Prop :=
  (∀ s : State, s.fault = none → s.own = .busy .init (288 * s.cfg.numDrivers + 12) →
    ∃ t, exec .init s = .next t ∧ t.ie = true ∧ stepWith true t = .next { t with tick := t.tick + 1 }.isr) ∧
  ∀ (s t : State) (fires : Bool), stepWith fires s = .next t → s.ie = true → t.ie = true

/-- R27, R212, R37, R38, R200: a driven line never returns to U, LIFE never returns to UNINIT, RESP, TRACE and the chain
observer's SR only grow (log 18). -/
def Obligations.NothingIsUndone : Prop :=
  ∀ (s t : State) (fires : Bool), stepWith fires s = .next t →
    (∀ l, s.line l ≠ .undriven → t.line l ≠ .undriven) ∧ (s.life = .ready → t.life = .ready) ∧
    s.resp <+: t.resp ∧ s.trace <+: t.trace ∧ s.sr <+: t.sr

/-- R191: the hang is unreachable: TP = 1 only with the interrupt enabled. In the hang state itself no step makes
progress: only `tick` moves (log 4). -/
def Obligations.HangIsUnreachable : Prop :=
  (∀ s : State, Reachable s → s.tp = true → s.ie = true) ∧
  ∀ (s : State) (i : Instr) (fires : Bool), s.fault = none → s.own = .busy i 0 →
    (i = .display ∨ ∃ v, i = .setglobaldc v) → s.tp = true → s.ie = false →
    stepWith fires s = .next { s with tick := s.tick + 1 }

/-- R133, R189: under every fair schedule every accepted command completes: the owner becomes idle, without a fault. A
turn of an owner that holds moves only `tick` (log 4); fairness is the spec's decision D11 (log 14). -/
def Obligations.CommandsCompleteUnderFairSchedules : Prop :=
  ∀ (s : State) (i : Instr) (u : Nat) (fires : Nat → Bool), s.Inv → s.fault = none → s.own = .busy i u →
    FairSchedule fires →
    ∃ k t, runWith ((List.range k).map fires) s = .next t ∧ t.own = .idle ∧ t.fault = none

/-- R157: a firing with TP = 0 writes no XLAT and no SCLK and changes nothing the chips latched. -/
def Obligations.IdleStability : Prop :=
  ∀ s : State, s.tp = false →
    s.isr = { s with
      blank := .low
      gsclkRun := true
      trace := s.trace ++ [.set .blank true, .gsclk false, .set .blank false, .gsclk true] }

/-- R200, R38: the lines' levels, SR, LIVE_GS and LIVE_DC are what the observer makes of the trace alone: it holds at
create and every step keeps it. -/
def Obligations.LinesAndChainFollowTheTrace : Prop :=
  (∀ (c : Config) (program : List Word), ({ State.initial c with host := program } : State).TraceOk) ∧
  ∀ (s t : State) (fires : Bool), s.TraceOk → stepWith fires s = .next t → t.TraceOk

/-- R60, R38: a line write sets its own line alone and appends exactly one event, whether or not the level changes. -/
def Obligations.LineWriteChangesOneLine : Prop :=
  ∀ (s : State) (l k : Line) (b : Bool),
    (s.driveLine l b).line l = Level.ofBit b ∧ (k ≠ l → (s.driveLine l b).line k = s.line k) ∧
    (s.driveLine l b).trace = s.trace ++ [.set l b]

/-- R200: the chain takes SIN's level at SCLK's 0-to-1 transition and latches at XLAT's, to LIVE_GS with VPRG = 0 and
to LIVE_DC with VPRG = 1; no other line write reaches it (the spec's decision D17). That a write of 1 to an undriven line
is no edge, and that a latch with VPRG undriven commits nothing, is the model's inference (log 6). -/
def Obligations.ChainObserver : Prop :=
  ∀ (s : State) (l : Line) (b : Bool),
    (s.sclk = .low → s.sin = .high → (s.driveLine .sclk true).sr = s.sr ++ [true]) ∧
    (s.sclk = .low → s.sin = .low → (s.driveLine .sclk true).sr = s.sr ++ [false]) ∧
    (s.xlat = .low → s.vprg = .low → s.cfg.frameBits ≤ s.sr.length →
      (s.driveLine .xlat true).liveGs = lastBits (192 * s.cfg.numDrivers) s.sr) ∧
    (s.xlat = .low → s.vprg = .high → s.cfg.dcBits ≤ s.sr.length →
      (s.driveLine .xlat true).liveDc = lastBits (96 * s.cfg.numDrivers) s.sr) ∧
    ((l, b) ≠ (.sclk, true) ∨ s.sclk ≠ .low → (s.driveLine l b).sr = s.sr) ∧
    ((l, b) ≠ (.xlat, true) ∨ s.xlat ≠ .low ∨ s.vprg ≠ .low → (s.driveLine l b).liveGs = s.liveGs) ∧
    ((l, b) ≠ (.xlat, true) ∨ s.xlat ≠ .low ∨ s.vprg ≠ .high → (s.driveLine l b).liveDc = s.liveDc)

/-- R201: outputs are off while BLANK = 1; otherwise a channel is driven by its LIVE_GS field, limited by its LIVE_DC
field, the fields' bits placed as R200 says. -/
def Obligations.VisibleOutput : Prop :=
  ∀ (s : State) (c : Nat),
    (s.blank = .high → s.visible c = .off) ∧
    (s.blank = .low → c < s.cfg.channels → s.liveGs.length = s.cfg.frameBits → s.liveDc.length = s.cfg.dcBits →
      ∃ gs dc, s.visible c = .driven gs dc ∧ gs < 4096 ∧ dc < 64 ∧
        (∀ j, j < 12 → s.liveGs[12 * c + j]? = some (gs.testBit (11 - j))) ∧
        ∀ j, j < 6 → s.liveDc[6 * c + j]? = some (dc.testBit (5 - j)))

/-- R233: an ended run stays ended, and FB, RESP, NP, LIFE, LIVE_GS and LIVE_DC are final: a later step is a firing with
TP = 0, of four events, or nothing (log 4). -/
def Obligations.EndedRunIsFinal : Prop :=
  ∀ (s t : State) (fires : Bool), s.ended → stepWith fires s = .next t →
    t.ended ∧ t.fb = s.fb ∧ t.resp = s.resp ∧ t.np = s.np ∧ t.life = s.life ∧ t.liveGs = s.liveGs ∧
    t.liveDc = s.liveDc ∧
    (if s.ie && fires then
      t.trace = s.trace ++ [.set .blank true, .gsclk false, .set .blank false, .gsclk true] ∧ t.blank = .low ∧
        t.gsclkRun = true
    else t = { s with tick := s.tick + 1 })
end

