-- ==== Sys2Proof/Laws/Encoding.lean ====
section
/-! SUPPORT. The number an assembler writes is a sum of its fields (R79), so a field of it is read by arithmetic. -/

namespace Sys2Proof

theorem or_shift_eq_add (a b k : Nat) (hb : b < 2 ^ k) : (a <<< k) ||| b = a * 2 ^ k + b := by
  rw [← Nat.shiftLeft_add_eq_or_of_lt hb, Nat.shiftLeft_eq]

theorem encodeNat_setled {c v : Nat} (hc : c < 65536) (hv : v < 4096) :
    encodeNat (.setled c v) = 0x30000000 + c * 4096 + v := by
  have h1 : (0x30000000 : Nat) = 3 <<< 28 := rfl
  have hcs : c <<< 12 = c * 4096 := by rw [Nat.shiftLeft_eq]
  have h2 : (0x30000000 : Nat) ||| (c <<< 12) = (0x30000 + c) <<< 12 := by
    rw [h1, or_shift_eq_add _ _ _ (by rw [hcs]; omega), hcs, Nat.shiftLeft_eq]; omega
  rw [encodeNat, h2, or_shift_eq_add _ _ _ (by omega)]; omega

theorem encodeNat_getled {c : Nat} (hc : c < 65536) : encodeNat (.getled c) = 0x40000000 + c * 4096 := by
  have h1 : (0x40000000 : Nat) = 4 <<< 28 := rfl
  have hcs : c <<< 12 = c * 4096 := by rw [Nat.shiftLeft_eq]
  rw [encodeNat, h1, or_shift_eq_add _ _ _ (by rw [hcs]; omega), hcs, Nat.shiftLeft_eq]

theorem encodeNat_setglobaldc {v : Nat} (hv : v < 64) : encodeNat (.setglobaldc v) = 0x60000000 + v := by
  have h1 : (0x60000000 : Nat) = 6 <<< 28 := rfl
  rw [encodeNat, h1, or_shift_eq_add _ _ _ (by omega), Nat.shiftLeft_eq]

/-- A field of a word written as a number. -/
theorem slice_ofNat {n : Nat} (hn : n < 2 ^ 32) (hi lo : Nat) :
    slice (BitVec.ofNat 32 n) hi lo = n / 2 ^ lo % 2 ^ (hi + 1 - lo) := by
  rw [slice, BitVec.toNat_ofNat, Nat.mod_eq_of_lt hn]

end Sys2Proof
end

