-- ==== Sys2Proof/Laws/Memory.lean ====
section
/-! SUPPORT. The frame buffer's bytes: read after write, and that a write keeps the canonical form. -/

namespace Sys2Proof.Machine

/-- A canonical memory lists nothing below where it starts. -/
theorem Memory.read_below_start {lo : Nat} {m : Memory} {a : Nat} (h : Memory.wfFrom lo m = true) (ha : a < lo) :
    Memory.read m a = Memory.unlisted := by
  induction m generalizing lo with
  | nil => rfl
  | cons c m ih =>
    obtain ⟨x, y⟩ := c
    simp only [Memory.wfFrom, Bool.and_eq_true, decide_eq_true_eq] at h
    have hx : x ≠ a := by omega
    simp only [Memory.read, hx, if_false]
    exact ih h.2 (by omega)

theorem Memory.wfFrom_mono {lo lo' : Nat} {m : Memory} (h : Memory.wfFrom lo m = true) (hl : lo' ≤ lo) :
    Memory.wfFrom lo' m = true := by
  cases m with
  | nil => rfl
  | cons c m =>
    simp only [Memory.wfFrom, Bool.and_eq_true, decide_eq_true_eq] at h ⊢
    exact ⟨⟨by omega, h.1.2⟩, h.2⟩

theorem Memory.wfFrom_cons {lo a : Nat} {b : Byte} {m : Memory} (h : Memory.wfFrom (a + 1) m = true) (ha : lo ≤ a) :
    Memory.wfFrom lo (Memory.cons a b m) = true := by
  unfold Memory.cons
  split
  · exact Memory.wfFrom_mono h (by omega)
  · simp_all [Memory.wfFrom]

/-- A write keeps the canonical form. -/
theorem Memory.wfFrom_write {lo : Nat} {m : Memory} {a : Nat} {b : Byte} (h : Memory.wfFrom lo m = true) (ha : lo ≤ a) :
    Memory.wfFrom lo (Memory.write m a b) = true := by
  induction m generalizing lo with
  | nil => exact Memory.wfFrom_cons rfl ha
  | cons c m ih =>
    obtain ⟨x, y⟩ := c
    have h' := h
    simp only [Memory.wfFrom, Bool.and_eq_true, decide_eq_true_eq] at h
    unfold Memory.write
    split
    · exact Memory.wfFrom_cons (by simp_all [Memory.wfFrom]) ha
    · split
      · subst a
        exact Memory.wfFrom_cons h.2 ha
      · have := ih h.2 (by omega)
        simp_all [Memory.wfFrom]

theorem Memory.wf_write {m : Memory} (a : Nat) (b : Byte) (h : Memory.wf m = true) :
    Memory.wf (Memory.write m a b) = true :=
  Memory.wfFrom_write h (Nat.zero_le a)

theorem Memory.read_cons_same {a : Nat} {b : Byte} {m : Memory} (h : Memory.wfFrom (a + 1) m = true) :
    Memory.read (Memory.cons a b m) a = b := by
  unfold Memory.cons
  split
  · rw [Memory.read_below_start h (by omega)]; simp_all
  · simp [Memory.read]

theorem Memory.read_cons_ne {a a' : Nat} (b : Byte) (m : Memory) (h : a' ≠ a) :
    Memory.read (Memory.cons a b m) a' = Memory.read m a' := by
  unfold Memory.cons
  split
  · rfl
  · simp [Memory.read, Ne.symm h]

theorem Memory.read_write_same_from {lo : Nat} {m : Memory} (a : Nat) (b : Byte) (h : Memory.wfFrom lo m = true) :
    Memory.read (Memory.write m a b) a = b := by
  induction m generalizing lo with
  | nil => exact Memory.read_cons_same rfl
  | cons c m ih =>
    obtain ⟨x, y⟩ := c
    have h' := h
    simp only [Memory.wfFrom, Bool.and_eq_true, decide_eq_true_eq] at h
    unfold Memory.write
    split
    · exact Memory.read_cons_same (by simp_all [Memory.wfFrom])
    · split
      · subst a
        exact Memory.read_cons_same h.2
      · simp only [Memory.read]
        rw [if_neg (by omega)]
        exact ih h.2

/-- A read after a write to the same address gives the value written. -/
theorem Memory.read_write_same {m : Memory} (a : Nat) (b : Byte) (h : Memory.wf m = true) :
    Memory.read (Memory.write m a b) a = b :=
  Memory.read_write_same_from a b h

/-- A write leaves every other address alone. -/
theorem Memory.read_write_ne (m : Memory) {a a' : Nat} (b : Byte) (h : a' ≠ a) :
    Memory.read (Memory.write m a b) a' = Memory.read m a' := by
  induction m with
  | nil => exact Memory.read_cons_ne b [] h
  | cons c m ih =>
    obtain ⟨x, y⟩ := c
    unfold Memory.write
    split
    · exact Memory.read_cons_ne b _ h
    · split
      · subst a
        rw [Memory.read_cons_ne b m h, Memory.read, if_neg (Ne.symm h)]
      · simp only [Memory.read, ih]

theorem Memory.read_write {m : Memory} (a a' : Nat) (b : Byte) (h : Memory.wf m = true) :
    Memory.read (Memory.write m a b) a' = if a' = a then b else Memory.read m a' := by
  split
  · subst a'; exact Memory.read_write_same a b h
  · exact Memory.read_write_ne m b ‹_›

theorem Memory.below_cell (n x : Nat) (y : Byte) (m : Memory) :
    Memory.below n ((x, y) :: m) = (decide (x < n) && Memory.below n m) := rfl

theorem Memory.below_cons {n : Nat} {m : Memory} {a : Nat} (b : Byte) (h : Memory.below n m = true) (ha : a < n) :
    Memory.below n (Memory.cons a b m) = true := by
  unfold Memory.cons
  split
  · exact h
  · rw [Memory.below_cell, h, decide_eq_true ha]; rfl

/-- A write below n lists nothing at n or above. -/
theorem Memory.below_write {n : Nat} {m : Memory} {a : Nat} (b : Byte) (h : Memory.below n m = true) (ha : a < n) :
    Memory.below n (Memory.write m a b) = true := by
  induction m with
  | nil => exact Memory.below_cons b rfl ha
  | cons c m ih =>
    obtain ⟨x, y⟩ := c
    have h' := h
    rw [Memory.below_cell, Bool.and_eq_true] at h'
    unfold Memory.write
    split
    · exact Memory.below_cons b h ha
    · split
      · exact Memory.below_cons b h'.2 ha
      · rw [Memory.below_cell, h'.1, ih h'.2]; rfl

/-- An address at or above n reads as unlisted. -/
theorem Memory.read_of_below {n : Nat} {m : Memory} {a : Nat} (h : Memory.below n m = true) (ha : n ≤ a) :
    Memory.read m a = Memory.unlisted := by
  induction m with
  | nil => rfl
  | cons c m ih =>
    obtain ⟨x, y⟩ := c
    simp only [Memory.below_cell, Bool.and_eq_true, decide_eq_true_eq] at h
    rw [Memory.read, if_neg (by omega)]
    exact ih h.2

/-- A canonical memory whose every byte reads 0x00 lists nothing. -/
theorem Memory.eq_nil_of_read {lo : Nat} {m : Memory} (h : Memory.wfFrom lo m = true)
    (hr : ∀ a, Memory.read m a = Memory.unlisted) : m = [] := by
  cases m with
  | nil => rfl
  | cons c m =>
    obtain ⟨x, y⟩ := c
    simp only [Memory.wfFrom, Bool.and_eq_true, decide_eq_true_eq] at h
    exact absurd (by simpa [Memory.read] using hr x) h.1.2

/-- Equal bytes make equal data: the form is canonical. -/
theorem Memory.ext_from {lo : Nat} {m m' : Memory} (h : Memory.wfFrom lo m = true) (h' : Memory.wfFrom lo m' = true)
    (hr : ∀ a, Memory.read m a = Memory.read m' a) : m = m' := by
  induction m generalizing lo m' with
  | nil => exact (Memory.eq_nil_of_read h' (fun a => (hr a).symm)).symm
  | cons c m ih =>
    cases m' with
    | nil => exact Memory.eq_nil_of_read h hr
    | cons d m' =>
      obtain ⟨x, y⟩ := c
      obtain ⟨x', y'⟩ := d
      simp only [Memory.wfFrom, Bool.and_eq_true, decide_eq_true_eq] at h h'
      have hx : x = x' := by
        rcases Nat.lt_trichotomy x x' with hlt | heq | hlt
        · have := hr x
          simp only [Memory.read, if_true, if_neg (show ¬ x' = x by omega)] at this
          exact absurd (this.trans (Memory.read_below_start h'.2 (by omega))) h.1.2
        · exact heq
        · have := hr x'
          simp only [Memory.read, if_true, if_neg (show ¬ x = x' by omega)] at this
          exact absurd (this.symm.trans (Memory.read_below_start h.2 (by omega))) h'.1.2
      subst x'
      have hy : y = y' := by simpa [Memory.read] using hr x
      subst y'
      have hm : m = m' := by
        refine ih h.2 h'.2 fun a => ?_
        by_cases ha : x = a
        · subst a
          rw [Memory.read_below_start h.2 (by omega), Memory.read_below_start h'.2 (by omega)]
        · simpa [Memory.read, ha] using hr a
      rw [hm]

theorem Memory.ext {m m' : Memory} (h : Memory.wf m = true) (h' : Memory.wf m' = true)
    (hr : ∀ a, Memory.read m a = Memory.read m' a) : m = m' :=
  Memory.ext_from h h' hr

/-- Reset's memory has the canonical form. -/
theorem State.initial_wf (c : Config) : Memory.wf (State.initial c).fb = true := rfl

/-- What `MemWrite` can do. -/
theorem State.memWrite_ok {i : Nat} {b : Byte} {s t : State} (h : s.memWrite i b = .ok t) :
    i < s.cfg.fbBytes ∧ t = { s with fb := Memory.write s.fb i b } := by
  unfold State.memWrite at h
  split at h
  · exact ⟨‹_›, (Except.ok.inj h).symm⟩
  · cases h

theorem State.memRead_of_lt {i : Nat} {s : State} (h : i < s.cfg.fbBytes) :
    s.memRead i = .ok (Memory.read s.fb i) := if_pos h

theorem State.memWrite_of_lt {i : Nat} (b : Byte) {s : State} (h : i < s.cfg.fbBytes) :
    s.memWrite i b = .ok { s with fb := Memory.write s.fb i b } := if_pos h

end Sys2Proof.Machine
end

