-- ==== Sys2Proof/Laws/Programs.lean ====
section
/-! SUPPORT. The micro-programs as lists: their lengths and the micro-operation at each index (R129, R141, R170). -/

namespace Sys2Proof.Machine

/-- A list of equal blocks is as long as the blocks together. -/
theorem length_flatMap_block {α β : Type} (l : List α) (f : α → List β) (k : Nat) (hf : ∀ x, (f x).length = k) :
    (l.flatMap f).length = k * l.length := by
  induction l with
  | nil => simp
  | cons x l ih => simp [ih, hf, Nat.mul_add, Nat.add_comm]

/-- Element r of block q of a list of equal blocks. -/
theorem getElem?_flatMap_block {α β : Type} (l : List α) (f : α → List β) (k : Nat) (hf : ∀ x, (f x).length = k)
    (q r : Nat) (hr : r < k) : (l.flatMap f)[k * q + r]? = (l[q]?).bind fun x => (f x)[r]? := by
  induction l generalizing q with
  | nil => simp
  | cons x l ih =>
    cases q with
    | zero => simp [List.getElem?_append_left (show r < (f x).length by rw [hf]; exact hr)]
    | succ q =>
      have h : k * (q + 1) + r = (f x).length + (k * q + r) := by rw [hf, Nat.mul_add]; omega
      rw [List.flatMap_cons, h, List.getElem?_append_right (by omega)]
      simpa using ih q

@[simp] theorem length_bitTriple (op : MicroOp) : (bitTriple op).length = 3 := rfl

/-- R123: `SHIFT(x, k)` is 3k micro-steps. -/
@[simp] theorem length_shift (x k : Nat) : (shift x k).length = 3 * k := by
  rw [shift, length_flatMap_block _ _ 3 (fun _ => rfl)]; simp

@[simp] theorem length_shift6 (x : Nat) : (shift6 x).length = 18 := length_shift x 6

theorem length_displayProgram (n : Nat) : (displayProgram n).length = 576 * n + 3 := by
  simp only [displayProgram, List.length_append, length_flatMap_block _ _ 3 (fun _ => length_bitTriple _),
    List.length_range, List.length_cons, List.length_nil]
  omega

theorem length_dcProgram (n v : Nat) : (dcProgram n v).length = 288 * n + 6 := by
  simp only [dcProgram, List.length_append, length_flatMap_block _ _ 18 (fun _ => length_shift6 v),
    List.length_range, List.length_cons, List.length_nil]
  omega

theorem length_initProgram (n : Nat) : (initProgram n).length = 864 * n + 17 := by
  simp only [initProgram, initPins, List.length_append, length_dcProgram, length_displayProgram, List.length_cons,
    List.length_nil]
  omega

/-- DISPLAY's micro-operations before the shift. -/
theorem displayProgram_zero (n : Nat) : (displayProgram n)[0]? = some .waitTp0 := rfl

theorem displayProgram_one (n : Nat) : (displayProgram n)[1]? = some (.lset .vprg false) := rfl

/-- DISPLAY's micro-operations of bit p (R129: upc 2+3p to 4+3p). -/
theorem displayProgram_bit (n p r : Nat) (hp : p < 192 * n) (hr : r < 3) :
    (displayProgram n)[2 + (3 * p + r)]? = (bitTriple (.sinfb p))[r]? := by
  rw [displayProgram, List.append_assoc, List.getElem?_append_right (by simp),
    List.getElem?_append_left (by
      rw [length_flatMap_block _ _ 3 (fun _ => length_bitTriple _)]; simp; omega)]
  simp only [List.length_cons, List.length_nil, Nat.add_sub_cancel_left]
  rw [getElem?_flatMap_block _ _ 3 (fun _ => length_bitTriple _) p r hr]
  simp [hp]

/-- DISPLAY's last micro-operation (R129: upc 576N+2). -/
theorem displayProgram_last (n : Nat) : (displayProgram n)[576 * n + 2]? = some (.fset .tp true) := by
  rw [displayProgram, List.getElem?_append_right (by
    simp [length_flatMap_block _ _ 3 (fun _ => length_bitTriple _)]; omega)]
  simp only [List.length_append, length_flatMap_block _ _ 3 (fun _ => length_bitTriple _), List.length_range,
    List.length_cons, List.length_nil]
  rw [show 576 * n + 2 - (0 + 1 + 1 + 3 * (192 * n)) = 0 by omega]
  rfl

theorem dcProgram_zero (n v : Nat) : (dcProgram n v)[0]? = some .waitTp0 := rfl

theorem dcProgram_one (n v : Nat) : (dcProgram n v)[1]? = some (.lset .vprg true) := rfl

/-- Bit j of the dot-correction stream is bit 5 - (j mod 6) of v (R142). -/
theorem shift6_bit (v j r : Nat) (hj : j < 6) (hr : r < 3) :
    (shift6 v)[3 * j + r]? = (bitTriple (.sinv (v.testBit (5 - j))))[r]? := by
  rw [shift6, shift, getElem?_flatMap_block _ _ 3 (fun _ => length_bitTriple _) j r hr]
  have : (List.range 6).reverse[j]? = some (5 - j) := by
    rw [List.getElem?_reverse (by simpa using hj)]
    rw [List.getElem?_range (by simp; omega)]
    simp
  rw [this]; rfl

/-- SETGLOBALDC's micro-operations of stream bit q (R141: upc 2+3q to 4+3q). -/
theorem dcProgram_bit (n v q r : Nat) (hq : q < 96 * n) (hr : r < 3) :
    (dcProgram n v)[2 + (3 * q + r)]? = (bitTriple (.sinv (v.testBit (5 - q % 6))))[r]? := by
  have h18 : 3 * q + r = 18 * (q / 6) + (3 * (q % 6) + r) := by omega
  rw [dcProgram, List.append_assoc, List.getElem?_append_right (by simp),
    List.getElem?_append_left (by
      rw [length_flatMap_block _ _ 18 (fun _ => length_shift6 v)]; simp; omega)]
  simp only [List.length_cons, List.length_nil]
  rw [show 0 + 1 + 1 = 2 from rfl, Nat.add_sub_cancel_left, h18,
    getElem?_flatMap_block _ _ 18 (fun _ => length_shift6 v) (q / 6) (3 * (q % 6) + r) (by omega)]
  have : (List.range (16 * n))[q / 6]? = some (q / 6) := by
    rw [List.getElem?_range (by omega)]
  rw [this]
  exact shift6_bit v (q % 6) r (by omega) hr

/-- SETGLOBALDC's last four micro-operations (R141). -/
theorem dcProgram_tail (n v r : Nat) :
    (dcProgram n v)[288 * n + 2 + r]? =
      ([.lset .xlat true, .lset .xlat false, .lset .vprg false, .fset .np true] : List MicroOp)[r]? := by
  rw [dcProgram, List.getElem?_append_right (by
    simp [length_flatMap_block _ _ 18 (fun _ => length_shift6 v)]; omega)]
  simp only [List.length_append, length_flatMap_block _ _ 18 (fun _ => length_shift6 v), List.length_range,
    List.length_cons, List.length_nil]
  rw [show 288 * n + 2 + r - (0 + 1 + 1 + 18 * (16 * n)) = r by omega]

/-- INIT's parts 1 and 2 (R171). -/
theorem initProgram_pins (n u : Nat) (hu : u < 5) : (initProgram n)[u]? = initPins[u]? := by
  simp only [initProgram, List.append_assoc]
  exact List.getElem?_append_left (by simpa [initPins] using hu)

/-- INIT's part 3 (R172). -/
theorem initProgram_dc (n u : Nat) (hu : u < 288 * n + 6) : (initProgram n)[5 + u]? = (dcProgram n 63)[u]? := by
  simp only [initProgram, List.append_assoc]
  rw [List.getElem?_append_right (by simp [initPins]), List.getElem?_append_left (by
    rw [length_dcProgram]; simp [initPins]; omega)]
  simp [initPins]

/-- INIT's part 4 (R173). -/
theorem initProgram_timers (n : Nat) : (initProgram n)[288 * n + 11]? = some (.gset true) := by
  simp only [initProgram, List.append_assoc]
  rw [List.getElem?_append_right (by simp [initPins]), List.getElem?_append_right (by
    rw [length_dcProgram]; simp [initPins])]
  simp only [length_dcProgram, initPins, List.length_cons, List.length_nil]
  rw [show 288 * n + 11 - (0 + 1 + 1 + 1 + 1 + 1) - (288 * n + 6) = 0 by omega]
  rfl

/-- INIT's part 5 (R174). -/
theorem initProgram_interrupt (n : Nat) : (initProgram n)[288 * n + 12]? = some (.ieset true) := by
  simp only [initProgram, List.append_assoc]
  rw [List.getElem?_append_right (by simp [initPins]), List.getElem?_append_right (by
    rw [length_dcProgram]; simp [initPins])]
  simp only [length_dcProgram, initPins, List.length_cons, List.length_nil]
  rw [show 288 * n + 12 - (0 + 1 + 1 + 1 + 1 + 1) - (288 * n + 6) = 1 by omega]
  rfl

/-- INIT's part 6 (R175). -/
theorem initProgram_display (n u : Nat) (hu : u < 576 * n + 3) :
    (initProgram n)[288 * n + 13 + u]? = (displayProgram n)[u]? := by
  simp only [initProgram, List.append_assoc]
  rw [List.getElem?_append_right (by simp [initPins]; omega), List.getElem?_append_right (by
    rw [length_dcProgram]; simp [initPins]; omega)]
  simp only [length_dcProgram, initPins, List.length_cons, List.length_nil]
  rw [show 288 * n + 13 + u - (0 + 1 + 1 + 1 + 1 + 1) - (288 * n + 6) = 2 + u by omega,
    List.getElem?_append_right (by simp; omega), List.getElem?_append_right (by simp),
    List.getElem?_append_left (by rw [length_displayProgram]; simp; omega)]
  congr 1
  simp only [List.length_cons, List.length_nil]
  omega

/-- INIT's last micro-operation (R176). -/
theorem initProgram_last (n : Nat) : (initProgram n)[864 * n + 16]? = some .lifeset := by
  rw [initProgram, List.getElem?_append_right (by
    simp [initPins, length_dcProgram, length_displayProgram]; omega)]
  simp only [List.length_append, initPins, length_dcProgram, length_displayProgram, List.length_cons, List.length_nil]
  rw [show 864 * n + 16 - (0 + 1 + 1 + 1 + 1 + 1 + (288 * n + 6) + (0 + 1) + (0 + 1) + (576 * n + 3)) = 0 by omega]
  rfl

end Sys2Proof.Machine
end

