-- ==== Sys2Proof/Laws/State.lean ====
section
/-! SUPPORT. One lemma per field per update: what an operation leaves unchanged, and what it writes. -/

namespace Sys2Proof.Machine

@[simp] theorem State.setFlag_cfg (f : Flag) (b : Bool) (s : State) : (s.setFlag f b).cfg = s.cfg := by cases f <;> rfl
@[simp] theorem State.setFlag_fb (f : Flag) (b : Bool) (s : State) : (s.setFlag f b).fb = s.fb := by cases f <;> rfl
@[simp] theorem State.setFlag_life (f : Flag) (b : Bool) (s : State) : (s.setFlag f b).life = s.life := by cases f <;> rfl
@[simp] theorem State.setFlag_sclk (f : Flag) (b : Bool) (s : State) : (s.setFlag f b).sclk = s.sclk := by cases f <;> rfl
@[simp] theorem State.setFlag_sin (f : Flag) (b : Bool) (s : State) : (s.setFlag f b).sin = s.sin := by cases f <;> rfl
@[simp] theorem State.setFlag_xlat (f : Flag) (b : Bool) (s : State) : (s.setFlag f b).xlat = s.xlat := by cases f <;> rfl
@[simp] theorem State.setFlag_blank (f : Flag) (b : Bool) (s : State) : (s.setFlag f b).blank = s.blank := by cases f <;> rfl
@[simp] theorem State.setFlag_vprg (f : Flag) (b : Bool) (s : State) : (s.setFlag f b).vprg = s.vprg := by cases f <;> rfl
@[simp] theorem State.setFlag_gsclkRun (f : Flag) (b : Bool) (s : State) : (s.setFlag f b).gsclkRun = s.gsclkRun := by cases f <;> rfl
@[simp] theorem State.setFlag_ie (f : Flag) (b : Bool) (s : State) : (s.setFlag f b).ie = s.ie := by cases f <;> rfl
@[simp] theorem State.setFlag_own (f : Flag) (b : Bool) (s : State) : (s.setFlag f b).own = s.own := by cases f <;> rfl
@[simp] theorem State.setFlag_fault (f : Flag) (b : Bool) (s : State) : (s.setFlag f b).fault = s.fault := by cases f <;> rfl
@[simp] theorem State.setFlag_resp (f : Flag) (b : Bool) (s : State) : (s.setFlag f b).resp = s.resp := by cases f <;> rfl
@[simp] theorem State.setFlag_trace (f : Flag) (b : Bool) (s : State) : (s.setFlag f b).trace = s.trace := by cases f <;> rfl
@[simp] theorem State.setFlag_sr (f : Flag) (b : Bool) (s : State) : (s.setFlag f b).sr = s.sr := by cases f <;> rfl
@[simp] theorem State.setFlag_liveGs (f : Flag) (b : Bool) (s : State) : (s.setFlag f b).liveGs = s.liveGs := by cases f <;> rfl
@[simp] theorem State.setFlag_liveDc (f : Flag) (b : Bool) (s : State) : (s.setFlag f b).liveDc = s.liveDc := by cases f <;> rfl
@[simp] theorem State.setFlag_host (f : Flag) (b : Bool) (s : State) : (s.setFlag f b).host = s.host := by cases f <;> rfl
@[simp] theorem State.setFlag_tick (f : Flag) (b : Bool) (s : State) : (s.setFlag f b).tick = s.tick := by cases f <;> rfl
@[simp] theorem State.setFlag_draws (f : Flag) (b : Bool) (s : State) : (s.setFlag f b).draws = s.draws := by cases f <;> rfl

@[simp] theorem State.setFlag_tp_tp (b : Bool) (s : State) : (s.setFlag .tp b).tp = b := rfl
@[simp] theorem State.setFlag_np_tp (b : Bool) (s : State) : (s.setFlag .np b).tp = s.tp := rfl
@[simp] theorem State.setFlag_np_np (b : Bool) (s : State) : (s.setFlag .np b).np = b := rfl
@[simp] theorem State.setFlag_tp_np (b : Bool) (s : State) : (s.setFlag .tp b).np = s.np := rfl

@[simp] theorem State.setIe_cfg (b : Bool) (s : State) : (s.setIe b).cfg = s.cfg := rfl
@[simp] theorem State.setIe_fb (b : Bool) (s : State) : (s.setIe b).fb = s.fb := rfl
@[simp] theorem State.setIe_tp (b : Bool) (s : State) : (s.setIe b).tp = s.tp := rfl
@[simp] theorem State.setIe_np (b : Bool) (s : State) : (s.setIe b).np = s.np := rfl
@[simp] theorem State.setIe_life (b : Bool) (s : State) : (s.setIe b).life = s.life := rfl
@[simp] theorem State.setIe_sclk (b : Bool) (s : State) : (s.setIe b).sclk = s.sclk := rfl
@[simp] theorem State.setIe_sin (b : Bool) (s : State) : (s.setIe b).sin = s.sin := rfl
@[simp] theorem State.setIe_xlat (b : Bool) (s : State) : (s.setIe b).xlat = s.xlat := rfl
@[simp] theorem State.setIe_blank (b : Bool) (s : State) : (s.setIe b).blank = s.blank := rfl
@[simp] theorem State.setIe_vprg (b : Bool) (s : State) : (s.setIe b).vprg = s.vprg := rfl
@[simp] theorem State.setIe_gsclkRun (b : Bool) (s : State) : (s.setIe b).gsclkRun = s.gsclkRun := rfl
@[simp] theorem State.setIe_own (b : Bool) (s : State) : (s.setIe b).own = s.own := rfl
@[simp] theorem State.setIe_fault (b : Bool) (s : State) : (s.setIe b).fault = s.fault := rfl
@[simp] theorem State.setIe_resp (b : Bool) (s : State) : (s.setIe b).resp = s.resp := rfl
@[simp] theorem State.setIe_trace (b : Bool) (s : State) : (s.setIe b).trace = s.trace := rfl
@[simp] theorem State.setIe_sr (b : Bool) (s : State) : (s.setIe b).sr = s.sr := rfl
@[simp] theorem State.setIe_liveGs (b : Bool) (s : State) : (s.setIe b).liveGs = s.liveGs := rfl
@[simp] theorem State.setIe_liveDc (b : Bool) (s : State) : (s.setIe b).liveDc = s.liveDc := rfl
@[simp] theorem State.setIe_host (b : Bool) (s : State) : (s.setIe b).host = s.host := rfl
@[simp] theorem State.setIe_tick (b : Bool) (s : State) : (s.setIe b).tick = s.tick := rfl
@[simp] theorem State.setIe_draws (b : Bool) (s : State) : (s.setIe b).draws = s.draws := rfl

@[simp] theorem State.setIe_ie (b : Bool) (s : State) : (s.setIe b).ie = b := rfl

@[simp] theorem State.setReady_cfg (s : State) : (s.setReady).cfg = s.cfg := rfl
@[simp] theorem State.setReady_fb (s : State) : (s.setReady).fb = s.fb := rfl
@[simp] theorem State.setReady_tp (s : State) : (s.setReady).tp = s.tp := rfl
@[simp] theorem State.setReady_np (s : State) : (s.setReady).np = s.np := rfl
@[simp] theorem State.setReady_sclk (s : State) : (s.setReady).sclk = s.sclk := rfl
@[simp] theorem State.setReady_sin (s : State) : (s.setReady).sin = s.sin := rfl
@[simp] theorem State.setReady_xlat (s : State) : (s.setReady).xlat = s.xlat := rfl
@[simp] theorem State.setReady_blank (s : State) : (s.setReady).blank = s.blank := rfl
@[simp] theorem State.setReady_vprg (s : State) : (s.setReady).vprg = s.vprg := rfl
@[simp] theorem State.setReady_gsclkRun (s : State) : (s.setReady).gsclkRun = s.gsclkRun := rfl
@[simp] theorem State.setReady_ie (s : State) : (s.setReady).ie = s.ie := rfl
@[simp] theorem State.setReady_own (s : State) : (s.setReady).own = s.own := rfl
@[simp] theorem State.setReady_fault (s : State) : (s.setReady).fault = s.fault := rfl
@[simp] theorem State.setReady_resp (s : State) : (s.setReady).resp = s.resp := rfl
@[simp] theorem State.setReady_trace (s : State) : (s.setReady).trace = s.trace := rfl
@[simp] theorem State.setReady_sr (s : State) : (s.setReady).sr = s.sr := rfl
@[simp] theorem State.setReady_liveGs (s : State) : (s.setReady).liveGs = s.liveGs := rfl
@[simp] theorem State.setReady_liveDc (s : State) : (s.setReady).liveDc = s.liveDc := rfl
@[simp] theorem State.setReady_host (s : State) : (s.setReady).host = s.host := rfl
@[simp] theorem State.setReady_tick (s : State) : (s.setReady).tick = s.tick := rfl
@[simp] theorem State.setReady_draws (s : State) : (s.setReady).draws = s.draws := rfl

@[simp] theorem State.setReady_life (s : State) : s.setReady.life = .ready := rfl

@[simp] theorem State.setLine_cfg (l : Line) (v : Level) (s : State) : (s.setLine l v).cfg = s.cfg := by cases l <;> rfl
@[simp] theorem State.setLine_fb (l : Line) (v : Level) (s : State) : (s.setLine l v).fb = s.fb := by cases l <;> rfl
@[simp] theorem State.setLine_tp (l : Line) (v : Level) (s : State) : (s.setLine l v).tp = s.tp := by cases l <;> rfl
@[simp] theorem State.setLine_np (l : Line) (v : Level) (s : State) : (s.setLine l v).np = s.np := by cases l <;> rfl
@[simp] theorem State.setLine_life (l : Line) (v : Level) (s : State) : (s.setLine l v).life = s.life := by cases l <;> rfl
@[simp] theorem State.setLine_gsclkRun (l : Line) (v : Level) (s : State) : (s.setLine l v).gsclkRun = s.gsclkRun := by cases l <;> rfl
@[simp] theorem State.setLine_ie (l : Line) (v : Level) (s : State) : (s.setLine l v).ie = s.ie := by cases l <;> rfl
@[simp] theorem State.setLine_own (l : Line) (v : Level) (s : State) : (s.setLine l v).own = s.own := by cases l <;> rfl
@[simp] theorem State.setLine_fault (l : Line) (v : Level) (s : State) : (s.setLine l v).fault = s.fault := by cases l <;> rfl
@[simp] theorem State.setLine_resp (l : Line) (v : Level) (s : State) : (s.setLine l v).resp = s.resp := by cases l <;> rfl
@[simp] theorem State.setLine_trace (l : Line) (v : Level) (s : State) : (s.setLine l v).trace = s.trace := by cases l <;> rfl
@[simp] theorem State.setLine_sr (l : Line) (v : Level) (s : State) : (s.setLine l v).sr = s.sr := by cases l <;> rfl
@[simp] theorem State.setLine_liveGs (l : Line) (v : Level) (s : State) : (s.setLine l v).liveGs = s.liveGs := by cases l <;> rfl
@[simp] theorem State.setLine_liveDc (l : Line) (v : Level) (s : State) : (s.setLine l v).liveDc = s.liveDc := by cases l <;> rfl
@[simp] theorem State.setLine_host (l : Line) (v : Level) (s : State) : (s.setLine l v).host = s.host := by cases l <;> rfl
@[simp] theorem State.setLine_tick (l : Line) (v : Level) (s : State) : (s.setLine l v).tick = s.tick := by cases l <;> rfl
@[simp] theorem State.setLine_draws (l : Line) (v : Level) (s : State) : (s.setLine l v).draws = s.draws := by cases l <;> rfl

@[simp] theorem State.setLine_line_same (l : Line) (v : Level) (s : State) : (s.setLine l v).line l = v := by cases l <;> rfl
theorem State.setLine_line (l k : Line) (v : Level) (s : State) :
    (s.setLine l v).line k = if l = k then v else s.line k := by cases l <;> cases k <;> rfl

@[simp] theorem State.emit_cfg (e : Event) (s : State) : (s.emit e).cfg = s.cfg := rfl
@[simp] theorem State.emit_fb (e : Event) (s : State) : (s.emit e).fb = s.fb := rfl
@[simp] theorem State.emit_tp (e : Event) (s : State) : (s.emit e).tp = s.tp := rfl
@[simp] theorem State.emit_np (e : Event) (s : State) : (s.emit e).np = s.np := rfl
@[simp] theorem State.emit_life (e : Event) (s : State) : (s.emit e).life = s.life := rfl
@[simp] theorem State.emit_sclk (e : Event) (s : State) : (s.emit e).sclk = s.sclk := rfl
@[simp] theorem State.emit_sin (e : Event) (s : State) : (s.emit e).sin = s.sin := rfl
@[simp] theorem State.emit_xlat (e : Event) (s : State) : (s.emit e).xlat = s.xlat := rfl
@[simp] theorem State.emit_blank (e : Event) (s : State) : (s.emit e).blank = s.blank := rfl
@[simp] theorem State.emit_vprg (e : Event) (s : State) : (s.emit e).vprg = s.vprg := rfl
@[simp] theorem State.emit_gsclkRun (e : Event) (s : State) : (s.emit e).gsclkRun = s.gsclkRun := rfl
@[simp] theorem State.emit_ie (e : Event) (s : State) : (s.emit e).ie = s.ie := rfl
@[simp] theorem State.emit_own (e : Event) (s : State) : (s.emit e).own = s.own := rfl
@[simp] theorem State.emit_fault (e : Event) (s : State) : (s.emit e).fault = s.fault := rfl
@[simp] theorem State.emit_resp (e : Event) (s : State) : (s.emit e).resp = s.resp := rfl
@[simp] theorem State.emit_sr (e : Event) (s : State) : (s.emit e).sr = s.sr := rfl
@[simp] theorem State.emit_liveGs (e : Event) (s : State) : (s.emit e).liveGs = s.liveGs := rfl
@[simp] theorem State.emit_liveDc (e : Event) (s : State) : (s.emit e).liveDc = s.liveDc := rfl
@[simp] theorem State.emit_host (e : Event) (s : State) : (s.emit e).host = s.host := rfl
@[simp] theorem State.emit_tick (e : Event) (s : State) : (s.emit e).tick = s.tick := rfl
@[simp] theorem State.emit_draws (e : Event) (s : State) : (s.emit e).draws = s.draws := rfl

@[simp] theorem State.emit_trace (e : Event) (s : State) : (s.emit e).trace = s.trace ++ [e] := rfl
@[simp] theorem State.emit_line (e : Event) (l : Line) (s : State) : (s.emit e).line l = s.line l := rfl

@[simp] theorem State.driveGsclk_cfg (b : Bool) (s : State) : (s.driveGsclk b).cfg = s.cfg := rfl
@[simp] theorem State.driveGsclk_fb (b : Bool) (s : State) : (s.driveGsclk b).fb = s.fb := rfl
@[simp] theorem State.driveGsclk_tp (b : Bool) (s : State) : (s.driveGsclk b).tp = s.tp := rfl
@[simp] theorem State.driveGsclk_np (b : Bool) (s : State) : (s.driveGsclk b).np = s.np := rfl
@[simp] theorem State.driveGsclk_life (b : Bool) (s : State) : (s.driveGsclk b).life = s.life := rfl
@[simp] theorem State.driveGsclk_sclk (b : Bool) (s : State) : (s.driveGsclk b).sclk = s.sclk := rfl
@[simp] theorem State.driveGsclk_sin (b : Bool) (s : State) : (s.driveGsclk b).sin = s.sin := rfl
@[simp] theorem State.driveGsclk_xlat (b : Bool) (s : State) : (s.driveGsclk b).xlat = s.xlat := rfl
@[simp] theorem State.driveGsclk_blank (b : Bool) (s : State) : (s.driveGsclk b).blank = s.blank := rfl
@[simp] theorem State.driveGsclk_vprg (b : Bool) (s : State) : (s.driveGsclk b).vprg = s.vprg := rfl
@[simp] theorem State.driveGsclk_ie (b : Bool) (s : State) : (s.driveGsclk b).ie = s.ie := rfl
@[simp] theorem State.driveGsclk_own (b : Bool) (s : State) : (s.driveGsclk b).own = s.own := rfl
@[simp] theorem State.driveGsclk_fault (b : Bool) (s : State) : (s.driveGsclk b).fault = s.fault := rfl
@[simp] theorem State.driveGsclk_resp (b : Bool) (s : State) : (s.driveGsclk b).resp = s.resp := rfl
@[simp] theorem State.driveGsclk_sr (b : Bool) (s : State) : (s.driveGsclk b).sr = s.sr := rfl
@[simp] theorem State.driveGsclk_liveGs (b : Bool) (s : State) : (s.driveGsclk b).liveGs = s.liveGs := rfl
@[simp] theorem State.driveGsclk_liveDc (b : Bool) (s : State) : (s.driveGsclk b).liveDc = s.liveDc := rfl
@[simp] theorem State.driveGsclk_host (b : Bool) (s : State) : (s.driveGsclk b).host = s.host := rfl
@[simp] theorem State.driveGsclk_tick (b : Bool) (s : State) : (s.driveGsclk b).tick = s.tick := rfl
@[simp] theorem State.driveGsclk_draws (b : Bool) (s : State) : (s.driveGsclk b).draws = s.draws := rfl

@[simp] theorem State.driveGsclk_gsclkRun (b : Bool) (s : State) : (s.driveGsclk b).gsclkRun = b := rfl
@[simp] theorem State.driveGsclk_trace (b : Bool) (s : State) : (s.driveGsclk b).trace = s.trace ++ [.gsclk b] := rfl
@[simp] theorem State.driveGsclk_line (b : Bool) (l : Line) (s : State) : (s.driveGsclk b).line l = s.line l := by cases l <;> rfl

@[simp] theorem State.takeBit_cfg (s : State) : (s.takeBit).cfg = s.cfg := by unfold State.takeBit; split <;> rfl
@[simp] theorem State.takeBit_fb (s : State) : (s.takeBit).fb = s.fb := by unfold State.takeBit; split <;> rfl
@[simp] theorem State.takeBit_tp (s : State) : (s.takeBit).tp = s.tp := by unfold State.takeBit; split <;> rfl
@[simp] theorem State.takeBit_np (s : State) : (s.takeBit).np = s.np := by unfold State.takeBit; split <;> rfl
@[simp] theorem State.takeBit_life (s : State) : (s.takeBit).life = s.life := by unfold State.takeBit; split <;> rfl
@[simp] theorem State.takeBit_sclk (s : State) : (s.takeBit).sclk = s.sclk := by unfold State.takeBit; split <;> rfl
@[simp] theorem State.takeBit_sin (s : State) : (s.takeBit).sin = s.sin := by unfold State.takeBit; split <;> rfl
@[simp] theorem State.takeBit_xlat (s : State) : (s.takeBit).xlat = s.xlat := by unfold State.takeBit; split <;> rfl
@[simp] theorem State.takeBit_blank (s : State) : (s.takeBit).blank = s.blank := by unfold State.takeBit; split <;> rfl
@[simp] theorem State.takeBit_vprg (s : State) : (s.takeBit).vprg = s.vprg := by unfold State.takeBit; split <;> rfl
@[simp] theorem State.takeBit_gsclkRun (s : State) : (s.takeBit).gsclkRun = s.gsclkRun := by unfold State.takeBit; split <;> rfl
@[simp] theorem State.takeBit_ie (s : State) : (s.takeBit).ie = s.ie := by unfold State.takeBit; split <;> rfl
@[simp] theorem State.takeBit_own (s : State) : (s.takeBit).own = s.own := by unfold State.takeBit; split <;> rfl
@[simp] theorem State.takeBit_fault (s : State) : (s.takeBit).fault = s.fault := by unfold State.takeBit; split <;> rfl
@[simp] theorem State.takeBit_resp (s : State) : (s.takeBit).resp = s.resp := by unfold State.takeBit; split <;> rfl
@[simp] theorem State.takeBit_trace (s : State) : (s.takeBit).trace = s.trace := by unfold State.takeBit; split <;> rfl
@[simp] theorem State.takeBit_liveGs (s : State) : (s.takeBit).liveGs = s.liveGs := by unfold State.takeBit; split <;> rfl
@[simp] theorem State.takeBit_liveDc (s : State) : (s.takeBit).liveDc = s.liveDc := by unfold State.takeBit; split <;> rfl
@[simp] theorem State.takeBit_host (s : State) : (s.takeBit).host = s.host := by unfold State.takeBit; split <;> rfl
@[simp] theorem State.takeBit_tick (s : State) : (s.takeBit).tick = s.tick := by unfold State.takeBit; split <;> rfl

@[simp] theorem State.latch_cfg (s : State) : (s.latch).cfg = s.cfg := by unfold State.latch; split <;> rfl
@[simp] theorem State.latch_fb (s : State) : (s.latch).fb = s.fb := by unfold State.latch; split <;> rfl
@[simp] theorem State.latch_tp (s : State) : (s.latch).tp = s.tp := by unfold State.latch; split <;> rfl
@[simp] theorem State.latch_np (s : State) : (s.latch).np = s.np := by unfold State.latch; split <;> rfl
@[simp] theorem State.latch_life (s : State) : (s.latch).life = s.life := by unfold State.latch; split <;> rfl
@[simp] theorem State.latch_sclk (s : State) : (s.latch).sclk = s.sclk := by unfold State.latch; split <;> rfl
@[simp] theorem State.latch_sin (s : State) : (s.latch).sin = s.sin := by unfold State.latch; split <;> rfl
@[simp] theorem State.latch_xlat (s : State) : (s.latch).xlat = s.xlat := by unfold State.latch; split <;> rfl
@[simp] theorem State.latch_blank (s : State) : (s.latch).blank = s.blank := by unfold State.latch; split <;> rfl
@[simp] theorem State.latch_vprg (s : State) : (s.latch).vprg = s.vprg := by unfold State.latch; split <;> rfl
@[simp] theorem State.latch_gsclkRun (s : State) : (s.latch).gsclkRun = s.gsclkRun := by unfold State.latch; split <;> rfl
@[simp] theorem State.latch_ie (s : State) : (s.latch).ie = s.ie := by unfold State.latch; split <;> rfl
@[simp] theorem State.latch_own (s : State) : (s.latch).own = s.own := by unfold State.latch; split <;> rfl
@[simp] theorem State.latch_fault (s : State) : (s.latch).fault = s.fault := by unfold State.latch; split <;> rfl
@[simp] theorem State.latch_resp (s : State) : (s.latch).resp = s.resp := by unfold State.latch; split <;> rfl
@[simp] theorem State.latch_trace (s : State) : (s.latch).trace = s.trace := by unfold State.latch; split <;> rfl
@[simp] theorem State.latch_sr (s : State) : (s.latch).sr = s.sr := by unfold State.latch; split <;> rfl
@[simp] theorem State.latch_host (s : State) : (s.latch).host = s.host := by unfold State.latch; split <;> rfl
@[simp] theorem State.latch_tick (s : State) : (s.latch).tick = s.tick := by unfold State.latch; split <;> rfl

@[simp] theorem State.observe_cfg (l : Line) (b : Bool) (s : State) : (s.observe l b).cfg = s.cfg := by unfold State.observe; split <;> (try split) <;> simp
@[simp] theorem State.observe_fb (l : Line) (b : Bool) (s : State) : (s.observe l b).fb = s.fb := by unfold State.observe; split <;> (try split) <;> simp
@[simp] theorem State.observe_tp (l : Line) (b : Bool) (s : State) : (s.observe l b).tp = s.tp := by unfold State.observe; split <;> (try split) <;> simp
@[simp] theorem State.observe_np (l : Line) (b : Bool) (s : State) : (s.observe l b).np = s.np := by unfold State.observe; split <;> (try split) <;> simp
@[simp] theorem State.observe_life (l : Line) (b : Bool) (s : State) : (s.observe l b).life = s.life := by unfold State.observe; split <;> (try split) <;> simp
@[simp] theorem State.observe_sclk (l : Line) (b : Bool) (s : State) : (s.observe l b).sclk = s.sclk := by unfold State.observe; split <;> (try split) <;> simp
@[simp] theorem State.observe_sin (l : Line) (b : Bool) (s : State) : (s.observe l b).sin = s.sin := by unfold State.observe; split <;> (try split) <;> simp
@[simp] theorem State.observe_xlat (l : Line) (b : Bool) (s : State) : (s.observe l b).xlat = s.xlat := by unfold State.observe; split <;> (try split) <;> simp
@[simp] theorem State.observe_blank (l : Line) (b : Bool) (s : State) : (s.observe l b).blank = s.blank := by unfold State.observe; split <;> (try split) <;> simp
@[simp] theorem State.observe_vprg (l : Line) (b : Bool) (s : State) : (s.observe l b).vprg = s.vprg := by unfold State.observe; split <;> (try split) <;> simp
@[simp] theorem State.observe_gsclkRun (l : Line) (b : Bool) (s : State) : (s.observe l b).gsclkRun = s.gsclkRun := by unfold State.observe; split <;> (try split) <;> simp
@[simp] theorem State.observe_ie (l : Line) (b : Bool) (s : State) : (s.observe l b).ie = s.ie := by unfold State.observe; split <;> (try split) <;> simp
@[simp] theorem State.observe_own (l : Line) (b : Bool) (s : State) : (s.observe l b).own = s.own := by unfold State.observe; split <;> (try split) <;> simp
@[simp] theorem State.observe_fault (l : Line) (b : Bool) (s : State) : (s.observe l b).fault = s.fault := by unfold State.observe; split <;> (try split) <;> simp
@[simp] theorem State.observe_resp (l : Line) (b : Bool) (s : State) : (s.observe l b).resp = s.resp := by unfold State.observe; split <;> (try split) <;> simp
@[simp] theorem State.observe_trace (l : Line) (b : Bool) (s : State) : (s.observe l b).trace = s.trace := by unfold State.observe; split <;> (try split) <;> simp
@[simp] theorem State.observe_host (l : Line) (b : Bool) (s : State) : (s.observe l b).host = s.host := by unfold State.observe; split <;> (try split) <;> simp
@[simp] theorem State.observe_tick (l : Line) (b : Bool) (s : State) : (s.observe l b).tick = s.tick := by unfold State.observe; split <;> (try split) <;> simp

@[simp] theorem State.observe_line (l : Line) (b : Bool) (k : Line) (s : State) : (s.observe l b).line k = s.line k := by
  cases k <;> simp [State.line]

@[simp] theorem State.driveLine_cfg (l : Line) (b : Bool) (s : State) : (s.driveLine l b).cfg = s.cfg := by simp [State.driveLine]
@[simp] theorem State.driveLine_fb (l : Line) (b : Bool) (s : State) : (s.driveLine l b).fb = s.fb := by simp [State.driveLine]
@[simp] theorem State.driveLine_tp (l : Line) (b : Bool) (s : State) : (s.driveLine l b).tp = s.tp := by simp [State.driveLine]
@[simp] theorem State.driveLine_np (l : Line) (b : Bool) (s : State) : (s.driveLine l b).np = s.np := by simp [State.driveLine]
@[simp] theorem State.driveLine_life (l : Line) (b : Bool) (s : State) : (s.driveLine l b).life = s.life := by simp [State.driveLine]
@[simp] theorem State.driveLine_gsclkRun (l : Line) (b : Bool) (s : State) : (s.driveLine l b).gsclkRun = s.gsclkRun := by simp [State.driveLine]
@[simp] theorem State.driveLine_ie (l : Line) (b : Bool) (s : State) : (s.driveLine l b).ie = s.ie := by simp [State.driveLine]
@[simp] theorem State.driveLine_own (l : Line) (b : Bool) (s : State) : (s.driveLine l b).own = s.own := by simp [State.driveLine]
@[simp] theorem State.driveLine_fault (l : Line) (b : Bool) (s : State) : (s.driveLine l b).fault = s.fault := by simp [State.driveLine]
@[simp] theorem State.driveLine_resp (l : Line) (b : Bool) (s : State) : (s.driveLine l b).resp = s.resp := by simp [State.driveLine]
@[simp] theorem State.driveLine_host (l : Line) (b : Bool) (s : State) : (s.driveLine l b).host = s.host := by simp [State.driveLine]
@[simp] theorem State.driveLine_tick (l : Line) (b : Bool) (s : State) : (s.driveLine l b).tick = s.tick := by simp [State.driveLine]

@[simp] theorem State.driveLine_trace (l : Line) (b : Bool) (s : State) :
    (s.driveLine l b).trace = s.trace ++ [.set l b] := by simp [State.driveLine]
@[simp] theorem State.driveLine_sr (l : Line) (b : Bool) (s : State) : (s.driveLine l b).sr = (s.observe l b).sr := by
  simp [State.driveLine]
@[simp] theorem State.driveLine_liveGs (l : Line) (b : Bool) (s : State) :
    (s.driveLine l b).liveGs = (s.observe l b).liveGs := by simp [State.driveLine]
@[simp] theorem State.driveLine_liveDc (l : Line) (b : Bool) (s : State) :
    (s.driveLine l b).liveDc = (s.observe l b).liveDc := by simp [State.driveLine]
@[simp] theorem State.driveLine_draws (l : Line) (b : Bool) (s : State) :
    (s.driveLine l b).draws = (s.observe l b).draws := by simp [State.driveLine]
/-- R60: a write changes its own line alone. -/
theorem State.driveLine_line (l k : Line) (b : Bool) (s : State) :
    (s.driveLine l b).line k = if l = k then Level.ofBit b else s.line k := by
  simp [State.driveLine, State.setLine_line]

theorem State.driveLine_sclk (l : Line) (b : Bool) (s : State) :
    (s.driveLine l b).sclk = if l = .sclk then Level.ofBit b else s.sclk := State.driveLine_line l .sclk b s
theorem State.driveLine_sin (l : Line) (b : Bool) (s : State) :
    (s.driveLine l b).sin = if l = .sin then Level.ofBit b else s.sin := State.driveLine_line l .sin b s
theorem State.driveLine_xlat (l : Line) (b : Bool) (s : State) :
    (s.driveLine l b).xlat = if l = .xlat then Level.ofBit b else s.xlat := State.driveLine_line l .xlat b s
theorem State.driveLine_blank (l : Line) (b : Bool) (s : State) :
    (s.driveLine l b).blank = if l = .blank then Level.ofBit b else s.blank := State.driveLine_line l .blank b s
theorem State.driveLine_vprg (l : Line) (b : Bool) (s : State) :
    (s.driveLine l b).vprg = if l = .vprg then Level.ofBit b else s.vprg := State.driveLine_line l .vprg b s

@[simp] theorem State.raiseFault_cfg (c : FaultCode) (w : Word) (s : State) : (s.raiseFault c w).cfg = s.cfg := rfl
@[simp] theorem State.raiseFault_fb (c : FaultCode) (w : Word) (s : State) : (s.raiseFault c w).fb = s.fb := rfl
@[simp] theorem State.raiseFault_tp (c : FaultCode) (w : Word) (s : State) : (s.raiseFault c w).tp = s.tp := rfl
@[simp] theorem State.raiseFault_np (c : FaultCode) (w : Word) (s : State) : (s.raiseFault c w).np = s.np := rfl
@[simp] theorem State.raiseFault_life (c : FaultCode) (w : Word) (s : State) : (s.raiseFault c w).life = s.life := rfl
@[simp] theorem State.raiseFault_sclk (c : FaultCode) (w : Word) (s : State) : (s.raiseFault c w).sclk = s.sclk := rfl
@[simp] theorem State.raiseFault_sin (c : FaultCode) (w : Word) (s : State) : (s.raiseFault c w).sin = s.sin := rfl
@[simp] theorem State.raiseFault_xlat (c : FaultCode) (w : Word) (s : State) : (s.raiseFault c w).xlat = s.xlat := rfl
@[simp] theorem State.raiseFault_blank (c : FaultCode) (w : Word) (s : State) : (s.raiseFault c w).blank = s.blank := rfl
@[simp] theorem State.raiseFault_vprg (c : FaultCode) (w : Word) (s : State) : (s.raiseFault c w).vprg = s.vprg := rfl
@[simp] theorem State.raiseFault_gsclkRun (c : FaultCode) (w : Word) (s : State) : (s.raiseFault c w).gsclkRun = s.gsclkRun := rfl
@[simp] theorem State.raiseFault_ie (c : FaultCode) (w : Word) (s : State) : (s.raiseFault c w).ie = s.ie := rfl
@[simp] theorem State.raiseFault_own (c : FaultCode) (w : Word) (s : State) : (s.raiseFault c w).own = s.own := rfl
@[simp] theorem State.raiseFault_resp (c : FaultCode) (w : Word) (s : State) : (s.raiseFault c w).resp = s.resp := rfl
@[simp] theorem State.raiseFault_trace (c : FaultCode) (w : Word) (s : State) : (s.raiseFault c w).trace = s.trace := rfl
@[simp] theorem State.raiseFault_sr (c : FaultCode) (w : Word) (s : State) : (s.raiseFault c w).sr = s.sr := rfl
@[simp] theorem State.raiseFault_liveGs (c : FaultCode) (w : Word) (s : State) : (s.raiseFault c w).liveGs = s.liveGs := rfl
@[simp] theorem State.raiseFault_liveDc (c : FaultCode) (w : Word) (s : State) : (s.raiseFault c w).liveDc = s.liveDc := rfl
@[simp] theorem State.raiseFault_host (c : FaultCode) (w : Word) (s : State) : (s.raiseFault c w).host = s.host := rfl
@[simp] theorem State.raiseFault_tick (c : FaultCode) (w : Word) (s : State) : (s.raiseFault c w).tick = s.tick := rfl
@[simp] theorem State.raiseFault_draws (c : FaultCode) (w : Word) (s : State) : (s.raiseFault c w).draws = s.draws := rfl

@[simp] theorem State.raiseFault_fault (c : FaultCode) (w : Word) (s : State) :
    (s.raiseFault c w).fault = some ⟨c, w⟩ := rfl

@[simp] theorem State.tickOn_cfg (s : State) : (s.tickOn).cfg = s.cfg := rfl
@[simp] theorem State.tickOn_fb (s : State) : (s.tickOn).fb = s.fb := rfl
@[simp] theorem State.tickOn_tp (s : State) : (s.tickOn).tp = s.tp := rfl
@[simp] theorem State.tickOn_np (s : State) : (s.tickOn).np = s.np := rfl
@[simp] theorem State.tickOn_life (s : State) : (s.tickOn).life = s.life := rfl
@[simp] theorem State.tickOn_sclk (s : State) : (s.tickOn).sclk = s.sclk := rfl
@[simp] theorem State.tickOn_sin (s : State) : (s.tickOn).sin = s.sin := rfl
@[simp] theorem State.tickOn_xlat (s : State) : (s.tickOn).xlat = s.xlat := rfl
@[simp] theorem State.tickOn_blank (s : State) : (s.tickOn).blank = s.blank := rfl
@[simp] theorem State.tickOn_vprg (s : State) : (s.tickOn).vprg = s.vprg := rfl
@[simp] theorem State.tickOn_gsclkRun (s : State) : (s.tickOn).gsclkRun = s.gsclkRun := rfl
@[simp] theorem State.tickOn_ie (s : State) : (s.tickOn).ie = s.ie := rfl
@[simp] theorem State.tickOn_own (s : State) : (s.tickOn).own = s.own := rfl
@[simp] theorem State.tickOn_fault (s : State) : (s.tickOn).fault = s.fault := rfl
@[simp] theorem State.tickOn_resp (s : State) : (s.tickOn).resp = s.resp := rfl
@[simp] theorem State.tickOn_trace (s : State) : (s.tickOn).trace = s.trace := rfl
@[simp] theorem State.tickOn_sr (s : State) : (s.tickOn).sr = s.sr := rfl
@[simp] theorem State.tickOn_liveGs (s : State) : (s.tickOn).liveGs = s.liveGs := rfl
@[simp] theorem State.tickOn_liveDc (s : State) : (s.tickOn).liveDc = s.liveDc := rfl
@[simp] theorem State.tickOn_host (s : State) : (s.tickOn).host = s.host := rfl
@[simp] theorem State.tickOn_draws (s : State) : (s.tickOn).draws = s.draws := rfl

@[simp] theorem State.tickOn_tick (s : State) : s.tickOn.tick = s.tick + 1 := rfl

@[simp] theorem State.pulse_cfg (l : Line) (s : State) : (s.pulse l).cfg = s.cfg := by simp [State.pulse]
@[simp] theorem State.pulse_fb (l : Line) (s : State) : (s.pulse l).fb = s.fb := by simp [State.pulse]
@[simp] theorem State.pulse_tp (l : Line) (s : State) : (s.pulse l).tp = s.tp := by simp [State.pulse]
@[simp] theorem State.pulse_np (l : Line) (s : State) : (s.pulse l).np = s.np := by simp [State.pulse]
@[simp] theorem State.pulse_life (l : Line) (s : State) : (s.pulse l).life = s.life := by simp [State.pulse]
@[simp] theorem State.pulse_gsclkRun (l : Line) (s : State) : (s.pulse l).gsclkRun = s.gsclkRun := by simp [State.pulse]
@[simp] theorem State.pulse_ie (l : Line) (s : State) : (s.pulse l).ie = s.ie := by simp [State.pulse]
@[simp] theorem State.pulse_own (l : Line) (s : State) : (s.pulse l).own = s.own := by simp [State.pulse]
@[simp] theorem State.pulse_fault (l : Line) (s : State) : (s.pulse l).fault = s.fault := by simp [State.pulse]
@[simp] theorem State.pulse_resp (l : Line) (s : State) : (s.pulse l).resp = s.resp := by simp [State.pulse]
@[simp] theorem State.pulse_host (l : Line) (s : State) : (s.pulse l).host = s.host := by simp [State.pulse]
@[simp] theorem State.pulse_tick (l : Line) (s : State) : (s.pulse l).tick = s.tick := by simp [State.pulse]

@[simp] theorem State.pulse_trace (l : Line) (s : State) :
    (s.pulse l).trace = s.trace ++ [.set l true, .set l false] := by simp [State.pulse]
/-- R28, R30: a pulse leaves its line at 0. -/
theorem State.pulse_line (l k : Line) (s : State) :
    (s.pulse l).line k = if l = k then .low else s.line k := by
  simp only [State.pulse, State.driveLine_line, Level.ofBit]; split <;> simp_all

@[simp] theorem State.isr_cfg (s : State) : (s.isr).cfg = s.cfg := by
  simp only [State.isr, State.isrExit, State.isrLatch, State.isrExtraPulse, State.isrEntry]; repeat (first | split | simp)
@[simp] theorem State.isr_fb (s : State) : (s.isr).fb = s.fb := by
  simp only [State.isr, State.isrExit, State.isrLatch, State.isrExtraPulse, State.isrEntry]; repeat (first | split | simp)
@[simp] theorem State.isr_life (s : State) : (s.isr).life = s.life := by
  simp only [State.isr, State.isrExit, State.isrLatch, State.isrExtraPulse, State.isrEntry]; repeat (first | split | simp)
@[simp] theorem State.isr_ie (s : State) : (s.isr).ie = s.ie := by
  simp only [State.isr, State.isrExit, State.isrLatch, State.isrExtraPulse, State.isrEntry]; repeat (first | split | simp)
@[simp] theorem State.isr_own (s : State) : (s.isr).own = s.own := by
  simp only [State.isr, State.isrExit, State.isrLatch, State.isrExtraPulse, State.isrEntry]; repeat (first | split | simp)
@[simp] theorem State.isr_fault (s : State) : (s.isr).fault = s.fault := by
  simp only [State.isr, State.isrExit, State.isrLatch, State.isrExtraPulse, State.isrEntry]; repeat (first | split | simp)
@[simp] theorem State.isr_resp (s : State) : (s.isr).resp = s.resp := by
  simp only [State.isr, State.isrExit, State.isrLatch, State.isrExtraPulse, State.isrEntry]; repeat (first | split | simp)
@[simp] theorem State.isr_host (s : State) : (s.isr).host = s.host := by
  simp only [State.isr, State.isrExit, State.isrLatch, State.isrExtraPulse, State.isrEntry]; repeat (first | split | simp)
@[simp] theorem State.isr_tick (s : State) : (s.isr).tick = s.tick := by
  simp only [State.isr, State.isrExit, State.isrLatch, State.isrExtraPulse, State.isrEntry]; repeat (first | split | simp)

end Sys2Proof.Machine
end

