-- ==== Sys2Proof/Laws/Owner.lean ====
section
/-! SUPPORT. What the owner's operations can do: the accessors' bodies, a micro-operation, a micro-step, the issue, a
command's step, and one step of the machine; each said once. -/

namespace Sys2Proof.Machine

/-! ### The accessors -/

theorem fieldByte_lt {c : Nat} {cfg : Config} (h : c < cfg.channels) : fieldByte c + 1 < cfg.fbBytes := by
  unfold Config.channels at h
  unfold fieldByte Config.fbBytes
  omega

/-- Reading the field of a legal channel (R51, R100). -/
theorem State.fieldRead_of_lt {c : Nat} {s : State} (h : c < s.cfg.channels) :
    s.fieldRead c = .ok (fieldOfBytes c (Memory.read s.fb (fieldByte c)) (Memory.read s.fb (fieldByte c + 1))) := by
  have hk := fieldByte_lt h
  simp only [State.fieldRead, State.memRead_of_lt (Nat.lt_of_succ_lt hk), State.memRead_of_lt hk]

/-- Writing a field both of whose bytes exist (R100). -/
theorem State.fieldWrite_of_byte {c : Nat} (v : Field) {s : State} (hk : fieldByte c + 1 < s.cfg.fbBytes) :
    s.fieldWrite c v = .ok { s with fb := fieldWritten s.fb c v } := by
  simp only [State.fieldWrite, State.memRead_of_lt (Nat.lt_of_succ_lt hk), State.memRead_of_lt hk,
    State.memWrite_of_lt _ (Nat.lt_of_succ_lt hk)]
  exact State.memWrite_of_lt (s := { s with fb := _ }) _ hk

/-- Writing the field of a legal channel (R51, R100). -/
theorem State.fieldWrite_of_lt {c : Nat} (v : Field) {s : State} (h : c < s.cfg.channels) :
    s.fieldWrite c v = .ok { s with fb := fieldWritten s.fb c v } :=
  State.fieldWrite_of_byte v (fieldByte_lt h)

/-- What writing a field can do. -/
theorem State.fieldWrite_ok {c : Nat} {v : Field} {s t : State} (h : s.fieldWrite c v = .ok t) :
    fieldByte c + 1 < s.cfg.fbBytes ∧ t = { s with fb := fieldWritten s.fb c v } := by
  by_cases hk : fieldByte c + 1 < s.cfg.fbBytes
  · rw [State.fieldWrite_of_byte v hk] at h
    exact ⟨hk, (Except.ok.inj h).symm⟩
  · unfold State.fieldWrite at h
    rw [show s.memRead (fieldByte c + 1) = .error (.noSuchByte (fieldByte c + 1)) from if_neg hk] at h
    cases h1 : s.memRead (fieldByte c) <;> simp [h1] at h

/-- Zeroing bytes of FB, in order. -/
theorem State.zeroBytes_of_lt (is : List Nat) (s : State) (h : ∀ i ∈ is, i < s.cfg.fbBytes) :
    s.zeroBytes is = .ok { s with fb := is.foldl (fun m i => Memory.write m i 0) s.fb } := by
  induction is generalizing s with
  | nil => rfl
  | cons i is ih =>
    rw [State.zeroBytes, State.memWrite_of_lt _ (h i (by simp))]
    exact ih _ fun j hj => h j (by simp [hj])

theorem Memory.zeroed_wf (is : List Nat) (m : Memory) (h : Memory.wf m = true) :
    Memory.wf (is.foldl (fun m i => Memory.write m i 0) m) = true := by
  induction is generalizing m with
  | nil => exact h
  | cons i is ih => exact ih _ (Memory.wf_write i 0 h)

theorem Memory.zeroed_below {n : Nat} (is : List Nat) (m : Memory) (h : Memory.below n m = true) (hi : ∀ i ∈ is, i < n) :
    Memory.below n (is.foldl (fun m i => Memory.write m i 0) m) = true := by
  induction is generalizing m with
  | nil => exact h
  | cons i is ih =>
    exact ih _ (Memory.below_write 0 h (hi i (by simp))) fun j hj => hi j (by simp [hj])

theorem Memory.zeroed_read (is : List Nat) (m : Memory) (h : Memory.wf m = true) (a : Nat) :
    Memory.read (is.foldl (fun m i => Memory.write m i 0) m) a = if a ∈ is then 0 else Memory.read m a := by
  induction is generalizing m with
  | nil => simp
  | cons i is ih =>
    rw [List.foldl_cons, ih _ (Memory.wf_write i 0 h), Memory.read_write i a 0 h]
    by_cases hi : a = i <;> by_cases hm : a ∈ is <;> simp [hi, hm]

/-- CLEAR's body leaves nothing listed (R106). -/
theorem State.clearBody_eq {s : State} (h : s.FbOk) : s.clearBody = .ok { s with fb := [] } := by
  rw [State.clearBody, State.zeroBytes_of_lt _ _ (fun i hi => List.mem_range.mp hi)]
  congr 2
  refine Memory.eq_nil_of_read (lo := 0) (Memory.zeroed_wf _ _ h.canonical) fun a => ?_
  rw [Memory.zeroed_read _ _ h.canonical]
  split
  · rfl
  · rename_i ha
    exact Memory.read_of_below h.within (by simpa using ha)

theorem State.clearBody_ok {s t : State} (h : s.clearBody = .ok t) :
    t = { s with fb := (List.range s.cfg.fbBytes).foldl (fun m i => Memory.write m i 0) s.fb } := by
  rw [State.clearBody, State.zeroBytes_of_lt _ _ (fun i hi => List.mem_range.mp hi)] at h
  exact (Except.ok.inj h).symm

/-! ### A micro-operation -/

/-- What a micro-operation leaves alone, whichever it is. -/
theorem MicroOp.run_ok {op : MicroOp} {s t : State} (h : op.run s = .ok t) :
    t.cfg = s.cfg ∧ t.own = s.own ∧ t.fault = s.fault ∧ t.host = s.host ∧ t.tick = s.tick := by
  cases op with
  | waitTp0 => cases h; simp
  | lset l b => cases h; simp
  | sinv b => cases h; simp
  | fset f b => cases h; simp
  | gset b => cases h; simp
  | ieset b => cases h; simp
  | lifeset => cases h; simp
  | sinfb p =>
    simp only [MicroOp.run, State.driveSinFromFb] at h
    split at h
    · cases h; simp
    · cases h
  | acc a =>
    cases a with
    | clear => rw [State.clearBody_ok h]; simp
    | setled c v => rw [(State.fieldWrite_ok h).2]; simp
    | getled c =>
      simp only [MicroOp.run, Accessor.run, State.getledBody] at h
      split at h
      · cases h; simp
      · cases h

/-! ### The owner's step of a command -/

/-- Every meaning is the shared operation with the command's own checks and micro-program. -/
theorem exec_eq (i : Instr) (s : State) :
    exec i s = s.ownerCommand i (s.checksOf i) (programOf s.cfg.numDrivers i) := by
  cases i <;> rfl

/-- What a micro-step can do: hold, or perform its micro-operation. -/
theorem State.microStep_cases {cmd : Instr} {prog : List MicroOp} {upc : Nat} {s t : State}
    (h : s.microStep cmd prog upc = .next t) :
    ∃ op, prog[upc]? = some op ∧
      ((op.holds s = true ∧ t = s) ∨
        (op.holds s = false ∧ ∃ u, op.run s = .ok u ∧ t = { u with own := ownAfter cmd prog.length upc })) := by
  unfold State.microStep at h
  split at h
  · cases h
  · rename_i op hop
    refine ⟨op, hop, ?_⟩
    split at h
    · exact .inl ⟨‹_›, by cases h; rfl⟩
    · rename_i hold
      split at h
      · rename_i u hu
        exact .inr ⟨eq_false_of_ne_true hold, u, hu, by cases h; rfl⟩
      · cases h

/-- What a command's step can do: issue it, or take its next micro-step. -/
theorem State.ownerCommand_cases {cmd : Instr} {checks : List (Option FaultCode)} {prog : List MicroOp} {s t : State}
    (h : s.ownerCommand cmd checks prog = .next t) :
    s.fault = none ∧
      ((s.own = .idle ∧ t = s.issue cmd checks) ∨
        ∃ upc, s.own = .busy cmd upc ∧ s.microStep cmd prog upc = .next t) := by
  unfold State.ownerCommand at h
  split at h
  · cases h
  · refine ⟨‹_›, ?_⟩
    split at h
    · exact .inl ⟨‹_›, by cases h; rfl⟩
    · split at h
      · subst cmd
        exact .inr ⟨_, ‹_›, h⟩
      · cases h

/-- The checks of a command all pass exactly when the block accepts it. -/
theorem State.firstFault_checksOf {i : Instr} {s : State} :
    firstFault (s.checksOf i) = none ↔ s.accepts i = true := by
  have hl : s.life ≠ .uninit ↔ s.life = .ready := by cases s.life <;> simp
  have hl' : s.life ≠ .ready ↔ s.life = .uninit := by cases s.life <;> simp
  have hr : s.readyCheck = none ↔ s.life = .ready := by
    unfold State.readyCheck; split <;> simp_all
  have hi : s.initCheck = none ↔ s.life = .uninit := by
    unfold State.initCheck; split <;> simp_all
  have hc : ∀ c, s.channelCheck c = none ↔ c < s.cfg.channels := by
    intro c; unfold State.channelCheck; split <;> simp_all
  have hv : ∀ v, s.intensityCheck v = none ↔ v < 2 ^ s.cfg.resolutionBits := by
    intro v; unfold State.intensityCheck; split <;> simp_all
  have hd : ∀ v, dcCheck v = none ↔ v < 64 := by
    intro v; unfold dcCheck; split <;> simp_all
  have hcons : ∀ (a : Option FaultCode) (l : List (Option FaultCode)),
      firstFault (a :: l) = none ↔ a = none ∧ firstFault l = none := by
    intro a l; cases a <;> simp [firstFault]
  have hnil : firstFault [] = none := rfl
  cases i <;> simp [State.checksOf, State.accepts, hcons, hnil, hr, hi, hc, hv, hd, and_assoc]
  exact and_comm

/-- What one step can do: the interrupt fires, or the owner steps; not in a faulted block. -/
theorem stepWith_cases {fires : Bool} {s t : State} (h : stepWith fires s = .next t) :
    s.fault = none ∧
      ((s.ie = true ∧ fires = true ∧ t = s.tickOn.isr) ∨
        ((s.ie && fires) = false ∧ s.tickOn.ownerStep = .next t)) := by
  unfold stepWith at h
  split at h
  · cases h
  · refine ⟨‹_›, ?_⟩
    split at h
    · rename_i hf
      rw [Bool.and_eq_true] at hf
      exact .inl ⟨hf.1, hf.2, by cases h; rfl⟩
    · exact .inr ⟨eq_false_of_ne_true ‹_›, h⟩

/-- What the owner's step can do: continue the command in progress, issue the host's next word, or wait for one. -/
theorem State.ownerStep_cases {s t : State} (h : s.ownerStep = .next t) :
    (∃ i u, s.own = .busy i u ∧ exec i s = .next t) ∨
      (s.own = .idle ∧ s.host = [] ∧ t = s) ∨
      (∃ w rest i, s.own = .idle ∧ s.host = w :: rest ∧ decode w = .ok i ∧
        exec i { s with host := rest } = .next t) ∨
      (∃ w rest e, s.own = .idle ∧ s.host = w :: rest ∧ decode w = .error e ∧
        t = { s with host := rest }.raiseFault (decodeFaultCode e) w) := by
  unfold State.ownerStep at h
  split at h
  · exact .inl ⟨_, _, ‹_›, h⟩
  · split at h
    · exact .inr (.inl ⟨‹_›, ‹_›, by cases h; rfl⟩)
    · unfold State.issueWord at h
      split at h
      · exact .inr (.inr (.inl ⟨_, _, _, ‹_›, ‹_›, ‹_›, h⟩))
      · exact .inr (.inr (.inr ⟨_, _, _, ‹_›, ‹_›, ‹_›, by cases h; rfl⟩))

end Sys2Proof.Machine
end

