-- ==== Sys2Proof/Laws/PerInstr.lean ====
section
/-! SUPPORT. The family EncodedFields: the opcode and the reserved-zero fields of every command's word
(`30_encoding.md` R72, R73), one lemma per constructor. -/

namespace Sys2Proof.Laws.EncodedFields

/-- R72: the opcode of a command. -/
def opcode : Instr → Nat
  | .init => 1
  | .clear => 2
  | .setled _ _ => 3
  | .getled _ => 4
  | .display => 5
  | .setglobaldc _ => 6

/-- R73: the fields of a command's word that must be zero, as (hi, lo). -/
def reserved : Instr → List (Nat × Nat)
  | .init => [(27, 0)]
  | .clear => [(27, 0)]
  | .setled _ _ => []
  | .getled _ => [(11, 0)]
  | .display => [(27, 0)]
  | .setglobaldc _ => [(27, 6)]

/-- The word of a well-formed command has its opcode and zeros in its reserved fields. -/
def Statement (i : Instr) : Prop :=
  i.wf = true → slice (encode i) 31 28 = opcode i ∧ ∀ f ∈ reserved i, slice (encode i) f.1 f.2 = 0

theorem init : Statement .init := fun _ => by decide

theorem clear : Statement .clear := fun _ => by decide

theorem display : Statement .display := fun _ => by decide

theorem setled (c v : Nat) : Statement (.setled c v) := by
  intro h
  simp only [Instr.wf, Bool.and_eq_true, decide_eq_true_eq] at h
  rw [encode, encodeNat_setled h.1 h.2, slice_ofNat (by omega)]
  exact ⟨by simp only [opcode]; omega, by simp [reserved]⟩

theorem getled (c : Nat) : Statement (.getled c) := by
  intro h
  simp only [Instr.wf, decide_eq_true_eq] at h
  simp only [encode, encodeNat_getled h, slice_ofNat (show 0x40000000 + c * 4096 < 2 ^ 32 by omega), reserved,
    List.mem_singleton, forall_eq, opcode]
  omega

theorem setglobaldc (v : Nat) : Statement (.setglobaldc v) := by
  intro h
  simp only [Instr.wf, decide_eq_true_eq] at h
  simp only [encode, encodeNat_setglobaldc h, slice_ofNat (show 0x60000000 + v < 2 ^ 32 by omega), reserved,
    List.mem_singleton, forall_eq, opcode]
  omega

end Sys2Proof.Laws.EncodedFields
end

