-- ==== Sys2Proof/Tests/Slice0.lean ====
section
/-! SUPPORT. Small tests: expected values from `95_test_vectors.md` or by hand from the rules named; and for every
obligation with hypotheses a witness that meets them. -/

namespace Sys2Proof.Tests

open Sys2Proof.Machine

/-! ### States to test on -/

/-- A block of n chips after INIT and a first firing that latched the zero frame, with the registers of the chain and the
buffer written out. -/
def ready (n r : Nat) (fb : Memory := []) : State :=
  { State.initial ⟨n, r⟩ with
    fb := fb
    life := .ready
    sclk := .low
    sin := .low
    xlat := .low
    blank := .low
    vprg := .low
    gsclkRun := true
    ie := true
    liveGs := List.replicate (192 * n) false
    liveDc := List.replicate (96 * n) true }

/-- The same block, idle, with a frame pending or not, the extra pulse owed or not. -/
def idle (tp np : Bool) (sin : Level := .low) : State :=
  { ready 1 12 with
    tp := tp
    np := np
    sin := sin
    sr := List.replicate 191 false ++ [true] }

/-- A one-chip block at micro-step u of a command other than INIT, run from `ready` with no firing. -/
def busy (i : Instr) (u : Nat) : State :=
  { ready 1 12 with
    own := .busy i u
    sclk := levelAfter [] .sclk .low ((programOf 1 i).take u)
    sin := levelAfter [] .sin .low ((programOf 1 i).take u)
    xlat := levelAfter [] .xlat .low ((programOf 1 i).take u)
    vprg := levelAfter [] .vprg .low ((programOf 1 i).take u)
    sr := sentBits [] .low ((programOf 1 i).take u) }

/-- A one-chip block at micro-step u of INIT, its latch of dot correction at the most, run from create. -/
def starting (u : Nat) : State :=
  { State.initial ⟨1, 12⟩ with
    own := .busy .init u
    sclk := levelAfter [] .sclk .undriven ((initProgram 1).take u)
    sin := levelAfter [] .sin .undriven ((initProgram 1).take u)
    xlat := levelAfter [] .xlat .undriven ((initProgram 1).take u)
    blank := levelAfter [] .blank .undriven ((initProgram 1).take u)
    vprg := levelAfter [] .vprg .undriven ((initProgram 1).take u)
    sr := sentBits [] .undriven ((initProgram 1).take u) }

/-- The state a step answers, if it is a next state. -/
def next? : Host.Outcome State Fault Refusal → Option State
  | .next t => some t
  | _ => none

theorem next_of_isSome {o : Host.Outcome State Fault Refusal} (h : (next? o).isSome = true) : ∃ t, o = .next t := by
  cases o with
  | next t => exact ⟨t, rfl⟩
  | fault => cases h
  | refused => cases h

/-- Bytes of the buffer. -/
def bytes (is : List Nat) (s : State) : List Byte := is.map (Memory.read s.fb)

/-! ### Well-formedness: an ill-formed term for each check (R71) -/

theorem test_wf_setled_channel : Instr.wf (.setled 65536 0) = false := by decide
theorem test_wf_setled_intensity : Instr.wf (.setled 0 4096) = false := by decide
theorem test_wf_getled_channel : Instr.wf (.getled 65536) = false := by decide
theorem test_wf_setglobaldc_value : Instr.wf (.setglobaldc 64) = false := by decide
theorem test_wf_bounds : Instr.wf (.setled 65535 4095) = true ∧ Instr.wf (.getled 65535) = true ∧
    Instr.wf (.setglobaldc 63) = true := by decide

/-! ### Decoding: words written out from R70 and R72 (`95_test_vectors.md` section 3) -/

theorem test_decode_init : decode 0b00010000000000000000000000000000 = .ok .init := by decide
theorem test_decode_clear : decode 0b00100000000000000000000000000000 = .ok .clear := by decide
theorem test_decode_setled : decode 0b00110000000000001111100111000011 = .ok (.setled 15 0x9C3) := by decide
theorem test_decode_getled : decode 0b01000000000000001111000000000000 = .ok (.getled 15) := by decide
theorem test_decode_display : decode 0b01010000000000000000000000000000 = .ok .display := by decide
theorem test_decode_setglobaldc : decode 0b01100000000000000000000000100000 = .ok (.setglobaldc 32) := by decide
theorem test_decode_illegal : decode 0x00000001 = .error .illegalOpcode ∧ decode 0x7FFFFFFF = .error .illegalOpcode ∧
    decode 0xF0000000 = .error .illegalOpcode := by decide
theorem test_decode_reserved : decode 0x18000000 = .error .reservedNonzero ∧
    decode 0x20001000 = .error .reservedNonzero ∧ decode 0x40000800 = .error .reservedNonzero ∧
    decode 0x50000001 = .error .reservedNonzero ∧ decode 0x60000040 = .error .reservedNonzero := by decide
theorem test_decode_table_word : decodeTableWord 32 0x3000F9C3 = some (.setled 15 0x9C3) ∧
    decodeTableWord 32 0x70000000 = none := by decide

/-! ### The accessors, one micro-step each (`95_test_vectors.md` section 2) -/

/-- P-3: after P-2, SETLED 0, 0 keeps channel 1's nibble. -/
theorem test_setled_even_keeps_nibble :
    (next? (exec (.setled 0 0) { ready 1 12 [(0, 0xAB), (1, 0xC1), (2, 0x23)] with own := .busy (.setled 0 0) 0 })).map
      (bytes [0, 1, 2]) = some [0x00, 0x01, 0x23] := by decide

/-- P-5: R = 8, an odd channel: field 0x5A0. -/
theorem test_setled_odd_scales :
    (next? (exec (.setled 3 0x5A) { ready 1 8 with own := .busy (.setled 3 0x5A) 0 })).map (bytes [4, 5]) =
      some [0x05, 0xA0] := by decide

/-- P-2: GETLED 1 of AB C1 23. -/
theorem test_getled_odd :
    (next? (exec (.getled 1) { ready 1 12 [(0, 0xAB), (1, 0xC1), (2, 0x23)] with own := .busy (.getled 1) 0 })).map
      (fun t => t.resp) = some [0x123] := by decide

/-- P-4: R = 8, GETLED 2 of the field 0xFF0. -/
theorem test_getled_scales_back :
    (next? (exec (.getled 2) { ready 1 8 [(3, 0xFF)] with own := .busy (.getled 2) 0 })).map (fun t => t.resp) =
      some [255] := by decide

/-- P-12: CLEAR. -/
theorem test_clear :
    (next? (exec .clear { ready 1 12 [(0, 0xFF), (1, 0xFF), (2, 0xFF), (23, 0x01)] with own := .busy .clear 0 })).map
      (fun t => t.fb) = some [] := by decide +kernel

/-! ### The shifting commands, one micro-step each -/

/-- Buffer bit 12 of FB = FF F0 is the first bit of channel 1, 0; bit 11 is 1 (section 5, R52). -/
theorem test_display_bit :
    (next? (exec .display { ready 1 12 [(0, 0xFF), (1, 0xF0)] with own := .busy .display 35 })).map (fun t => t.trace) =
        some [.set .sin true] ∧
      (next? (exec .display { ready 1 12 [(0, 0xFF), (1, 0xF0)] with own := .busy .display 38 })).map
        (fun t => t.trace) = some [.set .sin false] := by decide +kernel

/-- DISPLAY's 579th micro-step (N = 1) sets TP and emits nothing. -/
theorem test_display_last :
    (next? (exec .display { ready 1 12 with own := .busy .display 578 })).map (fun t => (t.tp, t.own, t.trace)) =
      some (true, .idle, []) := by decide +kernel

/-- SETGLOBALDC 32 at its latch: LIVE_DC becomes 16 copies of 100000. -/
theorem test_setglobaldc_latch :
    (next? (exec (.setglobaldc 32) (busy (.setglobaldc 32) 290))).map (fun t => t.liveDc) =
      some ((List.replicate 16 [true, false, false, false, false, false]).flatten) := by decide +kernel

/-- SETGLOBALDC 0 sets NP too. -/
theorem test_setglobaldc_last :
    (next? (exec (.setglobaldc 0) (busy (.setglobaldc 0) 293))).map (fun t => (t.np, t.own)) = some (true, .idle) := by
  decide +kernel

/-- INIT's first micro-step. -/
theorem test_init_first : (next? (exec .init (starting 0))).map (fun t => (t.sclk, t.trace)) =
    some (.low, [.set .sclk false]) := by decide +kernel

/-- INIT's 881st micro-step. -/
theorem test_init_last : (next? (exec .init { starting 0 with own := .busy .init 880 })).map
    (fun t => (t.life, t.own)) = some (.ready, .idle) := by decide +kernel

/-! ### Issue and faults (section 3) -/

/-- The FAULT an idle block has after the step that issues a word. -/
def faultOf (w : Word) (s : State) : Option FaultRecord :=
  (next? (stepWith false { s with host := [w] })).bind (fun t => t.fault)

theorem test_fault_decode : faultOf 0x00000000 State.reset = some ⟨.illegalOpcode, 0x00000000⟩ ∧
    faultOf 0x50000001 State.reset = some ⟨.reservedNonzero, 0x50000001⟩ := by decide
theorem test_fault_lifecycle : faultOf 0x30100000 State.reset = some ⟨.notInitialised, 0x30100000⟩ ∧
    faultOf 0x10000000 (ready 1 12) = some ⟨.reinit, 0x10000000⟩ := by decide
theorem test_fault_range : faultOf 0x30010FFF (ready 1 8) = some ⟨.channelRange, 0x30010FFF⟩ ∧
    faultOf 0x30000100 (ready 1 8) = some ⟨.intensityRange, 0x30000100⟩ ∧
    faultOf 0x40010000 (ready 1 12) = some ⟨.channelRange, 0x40010000⟩ := by decide
theorem test_no_fault : faultOf 0x300000FF (ready 1 8) = none ∧ faultOf 0x3000F000 (ready 1 12) = none ∧
    faultOf 0x3FFFFFFF (ready 4096 12) = none := by decide

/-- An operand no word holds (log 11). -/
theorem test_setglobaldc_64 : (next? (exec (.setglobaldc 64) (ready 1 12))).bind (fun t => t.fault) =
    some ⟨.reservedNonzero, 0x60000040⟩ := by decide

/-- The word placed for the host's next step is the one issued. -/
theorem test_withFetchWord : ((ready 1 12).withFetchWord 32 0x50000000).host = [0x50000000] ∧
    (State.reset.withFetchWord 32 0x10000000).own = .idle := by decide

/-! ### The interrupt (section 6) -/

theorem test_isr_no_latch : (idle false true).isr.trace =
    [.set .blank true, .gsclk false, .set .blank false, .gsclk true] ∧ (idle false true).isr.np = true := by decide
theorem test_isr_latch : (idle true false).isr.trace =
    [.set .blank true, .gsclk false, .set .xlat true, .set .xlat false, .set .blank false, .gsclk true] ∧
    (idle true false).isr.liveGs = List.replicate 191 false ++ [true] := by decide +kernel
theorem test_isr_extra_pulse : (idle true true .high).isr.trace =
    [.set .blank true, .gsclk false, .set .xlat true, .set .xlat false, .set .sclk true, .set .sclk false,
      .set .blank false, .gsclk true] ∧
    (idle true true .high).isr.sr = List.replicate 191 false ++ [true, true] := by decide +kernel

/-- A frame's field and its dot correction, most significant bit first (R200). -/
theorem test_visible : { ready 1 12 with
      liveGs := List.replicate 11 false ++ [true] ++ List.replicate 180 false
      liveDc := [true] ++ List.replicate 95 false }.visible 0 = .driven 1 32 := by decide +kernel

/-! ### The assembler (`95_test_vectors.md` section 9) -/

theorem test_assembler_line : asmLine "setled 31, 0xAB   ; 0x3001F0AB".toList = some (.command (.setled 31 0xAB)) := by
  decide +kernel
theorem test_assembler_program : (assemble ["CREATE 2, 8".toList, "INIT".toList, "DISPLAY ; 0x50000000".toList]).map
    (fun s => (s.cfg, s.host)) = some (⟨2, 8⟩, [0x10000000, 0x50000000]) := by decide +kernel

/-! ### States the invariant holds of -/

theorem levelAfter_ne_undriven (m : Memory) (l : Line) (v : Level) (ops : List MicroOp) (h : v ≠ .undriven) :
    levelAfter m l v ops ≠ .undriven := by
  induction ops generalizing v with
  | nil => exact h
  | cons op ops ih =>
    refine ih (op.levelAfter m l v) ?_
    have hb : ∀ b, Level.ofBit b ≠ .undriven := by decide
    cases op <;> simp only [MicroOp.levelAfter] <;> (try split) <;> first | exact h | exact hb _

theorem zero_lowBits {s : State} (h : s.fb = []) : s.LowBitsZero := by
  intro c f hf
  simp only [State.fieldRead, State.memRead, h, Memory.read] at hf
  split at hf
  · rename_i b0 b1 h0 h1
    split at h0
    · split at h1
      · cases h0
        cases h1
        cases hf
        rw [show fieldOfBytes c Memory.unlisted Memory.unlisted = 0 by unfold fieldOfBytes; split <;> decide]
        simp
      · cases h1
    · cases h0
  · cases hf
  · cases hf

/-- The invariant of an idle block, with a frame pending or not. -/
theorem test_witness_inv_idle (tp np : Bool) (sin : Level) (h : sin ≠ .undriven) : (idle tp np sin).Inv where
  cfgLegal := by rfl
  fbOk := ⟨by rfl, by rfl⟩
  lowBits := zero_lowBits rfl
  respSmall := fun v hv => absurd hv List.not_mem_nil
  position := fun i u h => by cases h
  beforeInit := fun h => by cases h
  fresh := fun h => by cases h
  lines := by rintro l (rfl | rfl | rfl) <;> rfl
  driven := fun _ => ⟨h, fun h => by cases h⟩
  interrupt := ⟨fun _ => .inl rfl, fun _ => rfl⟩
  clockRuns := fun _ => rfl
  exclusion := fun _ => ⟨rfl, .inl rfl⟩
  sent := fun i u h => by cases h
  liveLengths := ⟨List.length_replicate, List.length_replicate⟩

/-- The invariant of a block in a command other than INIT. -/
theorem test_witness_inv_busy (i : Instr) (u : Nat) (ha : (busy i u).accepts i = true)
    (hu : u < (programOf 1 i).length) : (busy i u).Inv where
  cfgLegal := by rfl
  fbOk := ⟨by rfl, by rfl⟩
  lowBits := zero_lowBits rfl
  respSmall := fun v hv => absurd hv List.not_mem_nil
  position := fun i' u' h => by cases h; exact ⟨ha, hu⟩
  beforeInit := fun h => by cases h
  fresh := fun h => by cases h
  lines := by rintro l (rfl | rfl | rfl) <;> rfl
  driven := fun _ => ⟨levelAfter_ne_undriven _ _ _ _ (by decide), fun h => by cases h⟩
  interrupt := ⟨fun _ => .inl rfl, fun _ => rfl⟩
  clockRuns := fun _ => rfl
  exclusion := fun h => by cases h
  sent := fun i' u' h _ => by cases h; exact ⟨.low, [], rfl, rfl⟩
  liveLengths := ⟨List.length_replicate, List.length_replicate⟩

/-- The invariant of a block in INIT, between its pins and its timers. -/
theorem test_witness_inv_starting (u : Nat) (h5 : (starting u).sin ≠ .undriven) (hb : (starting u).blank ≠ .undriven)
    (hu : u < 300) : (starting u).Inv where
  cfgLegal := by rfl
  fbOk := ⟨by rfl, by rfl⟩
  lowBits := zero_lowBits rfl
  respSmall := fun v hv => absurd hv List.not_mem_nil
  position := fun i' u' h => by cases h; exact ⟨rfl, lt_of_lt_of_eq (by omega : u < 881) (length_initProgram 1).symm⟩
  beforeInit := fun _ => ⟨rfl, rfl⟩
  fresh := fun _ h => by cases h
  lines := by rintro l (rfl | rfl | rfl) <;> rfl
  driven := fun _ => ⟨h5, hb⟩
  interrupt := by
    constructor
    · intro h
      cases h
    · rintro (h | ⟨u', h, hk⟩)
      · cases h
      · cases h
        simp only [starting, State.initial] at hk
        omega
  clockRuns := by
    rintro (h | ⟨u', h, hk⟩)
    · cases h
    · cases h
      simp only [starting, State.initial] at hk
      omega
  exclusion := fun h => by cases h
  sent := fun i' u' h _ => by cases h; exact ⟨.undriven, [], rfl, rfl⟩
  liveLengths := by simp [starting, State.initial, freeBits, Config.frameBits, Config.dcBits]

/-! ### A reachable state with a frame pending -/

/-- A micro-operation that cannot fail on one chip, sets no TP and clears no IE. -/
def plain : MicroOp → Bool
  | .sinfb p => decide (p < 192)
  | .fset .tp _ => false
  | .acc _ => false
  | .ieset b => b
  | _ => true

theorem plain_run {op : MicroOp} {s : State} (h : plain op = true) (hc : s.cfg = ⟨1, 12⟩) (ht : s.tp = false) :
    ∃ t, op.run s = .ok t ∧ t.tp = false ∧ (s.ie = true ∨ op = .ieset true → t.ie = true) := by
  cases op with
  | waitTp0 => exact ⟨_, rfl, ht, by simp⟩
  | lset l b => exact ⟨_, rfl, by simpa using ht, by simp⟩
  | sinv b => exact ⟨_, rfl, by simpa using ht, by simp⟩
  | fset f b =>
    cases f
    · cases h
    · exact ⟨_, rfl, ht, by simp⟩
  | gset b => exact ⟨_, rfl, ht, by simp⟩
  | ieset b => exact ⟨_, rfl, ht, fun _ => h⟩
  | lifeset => exact ⟨_, rfl, ht, by simp⟩
  | acc a => cases h
  | sinfb p =>
    have hp : p < 192 := by simpa [plain] using h
    have hk : p / 8 < s.cfg.fbBytes := by rw [hc]; simp [Config.fbBytes]; omega
    refine ⟨s.driveLine .sin (bitOfByte p (Memory.read s.fb (p / 8))), ?_, by simpa using ht, by simp⟩
    rw [MicroOp.run, State.driveSinFromFb, State.memRead_of_lt hk]

theorem initProgram_plain : ((initProgram 1).take 879).all plain = true := by decide +kernel

/-- One step of INIT with no firing, on one chip. -/
theorem init_step {s t : State} {u : Nat} {op : MicroOp} (hc : s.cfg = ⟨1, 12⟩) (hf : s.fault = none)
    (ho : s.own = .busy .init u) (hop : (initProgram 1)[u]? = some op) (hh : op.holds s.tickOn = false)
    (hx : op.run s.tickOn = .ok t) : stepWith false s = .next { t with own := ownAfter .init 881 u } := by
  rw [← show (initProgram 1).length = 881 from length_initProgram 1]
  simp only [stepWith, hf, Bool.and_false, Bool.false_eq_true, if_false, State.ownerStep, State.tickOn_own, ho]
  rw [exec_eq, State.ownerCommand]
  split
  · rename_i r h1
    have h2 : s.fault = some r := h1
    rw [hf] at h2
    cases h2
  · simp only [State.tickOn_own, ho, if_true]
    rw [show programOf s.tickOn.cfg.numDrivers .init = initProgram 1 by simp [hc, programOf], State.microStep, hop]
    simp only [hh, hx, Bool.false_eq_true, if_false]

theorem init_reaches (u : Nat) (hu : u ≤ 879) : ∃ s, ReachableWith s none ∧ s.cfg = ⟨1, 12⟩ ∧ s.fault = none ∧
    s.own = .busy .init u ∧ s.tp = false ∧ (301 ≤ u → s.ie = true) := by
  induction u with
  | zero =>
    exact ⟨_, .step false _ _ none (.create ⟨1, 12⟩ [0x10000000] rfl) rfl, rfl, rfl, rfl, rfl, by omega⟩
  | succ u ih =>
    obtain ⟨s, hr, hc, hf, ho, ht, hi⟩ := ih (by omega)
    have hl : (initProgram 1).length = 881 := length_initProgram 1
    have hop : (initProgram 1)[u]? = some ((initProgram 1)[u]'(by omega)) := List.getElem?_eq_getElem _
    have hp : plain ((initProgram 1)[u]'(by omega)) = true := by
      refine List.all_eq_true.mp initProgram_plain _ ?_
      rw [List.mem_iff_getElem?]
      exact ⟨u, by rw [List.getElem?_take_of_lt (by omega), hop]⟩
    generalize (initProgram 1)[u]'(by omega) = op at hop hp
    obtain ⟨t, hx, htt, hie⟩ := plain_run (s := s.tickOn) hp hc ht
    have hh : op.holds s.tickOn = false := by
      cases op <;> first | rfl | exact ht
    have hk := MicroOp.run_ok hx
    have hown : ownAfter .init 881 u = .busy .init (u + 1) := by
      unfold ownAfter
      rw [if_pos (by omega)]
    have hs := init_step hc hf ho hop hh hx
    rw [hown] at hs
    have hrt := ReachableWith.step false _ _ none hr hs
    have hframe : (if t.tp && !s.tp then some s.frame else none) = none := by rw [htt]; rfl
    rw [show ({ t with own := .busy .init (u + 1) } : State).tp = t.tp from rfl, hframe] at hrt
    refine ⟨_, hrt, hk.1.trans hc, hk.2.2.1.trans hf, rfl, htt, fun h => hie ?_⟩
    by_cases h1 : u = 300
    · right
      subst h1
      rw [show (300 : Nat) = 288 * 1 + 12 from rfl, initProgram_interrupt] at hop
      exact (Option.some.inj hop).symm
    · exact .inl (hi (by omega))

theorem reachable_of_with {s : State} {frame : Option (List Bool)} (h : ReachableWith s frame) : Reachable s := by
  induction h with
  | create c program hc => exact .create c program hc
  | step fires s t frame _ hs ih => exact .step fires s t ih hs

/-- After INIT's display a reachable state has TP = 1, and the interrupt may fire in it: FramesArePublishedWhole's first
case, ReachableShiftExclusion's and HangIsUnreachable's premises. -/
theorem test_witness_frame_pending : ∃ s t f, ReachableWith s (some f) ∧ Reachable s ∧ s.tp = true ∧
    (true && s.ie && s.tp) = true ∧ stepWith true s = .next t := by
  obtain ⟨s, hr, hc, hf, ho, ht, hi⟩ := init_reaches 879 (by omega)
  obtain ⟨x, hs, hxt, hxi, hxf⟩ : ∃ x, stepWith false s = .next x ∧ x.tp = true ∧ x.ie = true ∧ x.fault = none :=
    ⟨_, init_step (op := .fset .tp true) hc hf ho (by decide +kernel) rfl rfl, rfl, hi (by omega), hf⟩
  have hrt := ReachableWith.step false _ _ none hr hs
  rw [ht, hxt] at hrt
  exact ⟨x, x.tickOn.isr, s.frame, hrt, reachable_of_with hrt, hxt, by simp [hxi, hxt], by simp [stepWith, hxf, hxi]⟩

/-! ### A witness of the hypotheses of each obligation, at the bounds of its clauses -/

theorem test_witness_DecodeEncodeAgree : Instr.wf (.setled 65535 4095) = true := by decide

theorem test_witness_EncodeDecodeAgree : decode 0x6000003F = .ok (.setglobaldc 63) := by decide

theorem test_witness_ReservedFieldsAndIllegalOpcodesFault :
    slice 0x0FFFFFFF 31 28 = 0 ∧ 7 ≤ slice 0x70000000 31 28 ∧
      (slice 0x10000001 31 28 = 1 ∧ slice 0x10000001 27 0 ≠ 0) ∧
      (slice 0x28000000 31 28 = 2 ∧ slice 0x28000000 27 0 ≠ 0) ∧
      (slice 0x50000001 31 28 = 5 ∧ slice 0x50000001 27 0 ≠ 0) ∧
      (slice 0x40000001 31 28 = 4 ∧ slice 0x40000001 11 0 ≠ 0) ∧
      (slice 0x60000040 31 28 = 6 ∧ slice 0x60000040 27 6 ≠ 0) ∧ slice 0x3FFFFFFF 31 28 = 3 ∧
      (64 ≤ 64 ∧ 2 ^ 28 - 1 < 2 ^ 28) ∧ (ready 1 12).fault = none ∧ (ready 1 12).own = .idle ∧
      decode 0x70000000 = .error .illegalOpcode ∧ decode 0x60000040 = .error .reservedNonzero := by decide

theorem test_witness_AssemblerEncodesOrRefuses : 65535 < 65536 ∧ 4095 < 4096 ∧ 63 < 64 := by decide

theorem test_witness_FieldReadAndFieldWrite : (ready 1 12 [(22, 0x09), (23, 0xC3)]).FbOk ∧
    (14 < 16 * 1 ∧ 12 * 14 % 8 = 0) ∧ (15 < 16 * 1 ∧ 12 * 15 % 8 ≠ 0) ∧ 12 * 14 + 12 ≤ 191 :=
  ⟨⟨by decide, by decide⟩, by decide⟩

theorem test_witness_FieldBitsAreBufferBits : 15 < (ready 1 12).cfg.channels := by decide

theorem test_witness_SetledStoresTheIntensity : (busy (.setled 15 4095) 0).fault = none ∧
    (busy (.setled 15 4095) 0).own = .busy (.setled 15 4095) 0 ∧ 15 < (busy (.setled 15 4095) 0).cfg.channels := by
  decide

theorem test_witness_StoredValueScales : (Config.mk 1 1).legal = true ∧ 1 < 2 ^ 1 ∧
    (Config.mk 4096 12).legal = true ∧ 4095 < 2 ^ 12 := by decide

theorem test_witness_GetledReturnsTheIntensity : (busy (.getled 15) 0).fault = none ∧
    (busy (.getled 15) 0).own = .busy (.getled 15) 0 ∧ 15 < (busy (.getled 15) 0).cfg.channels := by decide

theorem test_witness_ClearZeroesTheBuffer : (busy .clear 0).FbOk ∧ (busy .clear 0).fault = none ∧
    (busy .clear 0).own = .busy .clear 0 ∧ 23 < (busy .clear 0).cfg.fbBytes :=
  ⟨⟨by decide, by decide⟩, by decide⟩

theorem test_witness_SetledThenGetledReturnsTheValue : (ready 1 8).FbOk ∧ (ready 1 8).cfg.legal = true ∧
    (ready 1 8).fault = none ∧ (ready 1 8).own = .idle ∧ (ready 1 8).life = .ready ∧ 15 < (ready 1 8).cfg.channels ∧
    255 < 2 ^ (ready 1 8).cfg.resolutionBits := ⟨⟨by decide, by decide⟩, by decide⟩

theorem test_witness_SetledLeavesOtherChannels : ∃ t, (busy (.setled 0 0xABC) 0).FbOk ∧ 0 ≠ 1 ∧
    1 < (busy (.setled 0 0xABC) 0).cfg.channels ∧ exec (.setled 0 0xABC) (busy (.setled 0 0xABC) 0) = .next t := by
  obtain ⟨t, h⟩ := next_of_isSome (o := exec (.setled 0 0xABC) (busy (.setled 0 0xABC) 0)) (by decide)
  exact ⟨t, ⟨by decide, by decide⟩, by decide, by decide, h⟩

theorem test_witness_AccessorsHaveNoHardwareEffect : ∃ t u v w, exec .clear (busy .clear 0) = .next t ∧
    exec (.setled 1 2) (busy (.setled 1 2) 0) = .next u ∧ exec (.getled 1) (busy (.getled 1) 0) = .next v ∧
    exec (.getled 1) (ready 1 12) = .next w ∧ (busy (.getled 1) 0).own ≠ .idle := by
  obtain ⟨t, h1⟩ := next_of_isSome (o := exec .clear (busy .clear 0)) (by decide +kernel)
  obtain ⟨u, h2⟩ := next_of_isSome (o := exec (.setled 1 2) (busy (.setled 1 2) 0)) (by decide)
  obtain ⟨v, h3⟩ := next_of_isSome (o := exec (.getled 1) (busy (.getled 1) 0)) (by decide)
  obtain ⟨w, h4⟩ := next_of_isSome (o := exec (.getled 1) (ready 1 12)) (by decide)
  exact ⟨t, u, v, w, h1, h2, h3, h4, by decide⟩

theorem test_witness_IssueChecksInOrder : (ready 1 8).fault = none ∧ (ready 1 8).own = .idle ∧
    ({ ready 1 8 with host := [0x30010FFF] } : State).host = 0x30010FFF :: [] ∧
    decode 0x70000000 = .error .illegalOpcode ∧ decode 0x30010FFF = .ok (.setled 16 4095) := by decide

theorem test_witness_FaultIsSticky : ({ ready 1 12 with fault := some ⟨.reinit, 0x10000000⟩ } : State).fault =
    some ⟨.reinit, 0x10000000⟩ := by decide

theorem test_witness_FaultingCommandChangesOnlyFault : ∃ t, stepWith false { ready 1 12 with host := [0x10000000] } =
    .next t ∧ t.fault ≠ none := by
  have h : ((next? (stepWith false { ready 1 12 with host := [0x10000000] })).map (fun t => t.fault)) =
    some (some ⟨.reinit, 0x10000000⟩) := by decide
  obtain ⟨t, ht⟩ := next_of_isSome (o := stepWith false { ready 1 12 with host := [0x10000000] }) (by decide)
  refine ⟨t, ht, ?_⟩
  rw [ht] at h
  simp only [next?, Option.map_some, Option.some.injEq] at h
  rw [h]
  decide

theorem test_witness_SecondCallerIsRefused : (busy .display 5).fault = none ∧
    (busy .display 5).own = .busy .display 5 ∧ Instr.setglobaldc 1 ≠ .display := by decide +kernel

theorem test_witness_MicroStepPerformsTheNextOperation : ∃ t, (busy .display 0).fault = none ∧
    (busy .display 0).own = .busy .display 0 ∧ (programOf 1 .display)[0]? = some .waitTp0 ∧
    (busy .display 0).tp = false ∧ MicroOp.waitTp0.run (busy .display 0) = .ok t := ⟨_, rfl, rfl, rfl, rfl, rfl⟩

theorem test_witness_ShiftSendsMostSignificantBitFirst : 7 < 8 ∧ MicroOp.lset .sclk true ∈ shift 0xA5 8 ∧
    191 < (ready 1 12).cfg.frameBits := by decide

theorem test_witness_DisplayMicroSteps : (busy .display 0).own = .busy .display 0 ∧ (busy .display 0).tp = false ∧
    (busy .display 1).own = .busy .display 1 ∧ 191 < 192 * 1 ∧
    (busy .display 575).own = .busy .display (2 + 3 * 191) ∧ (busy .display 576).own = .busy .display (3 + 3 * 191) ∧
    (busy .display 577).own = .busy .display (4 + 3 * 191) ∧
    (busy .display 578).own = .busy .display (576 * 1 + 2) ∧ (busy .display 578).fault = none := by decide +kernel

theorem test_witness_DisplayShiftsTheWholeFrame : (busy .display 0).cfg.legal = true ∧
    (busy .display 0).fault = none ∧ (busy .display 0).own = .busy .display 0 ∧ (busy .display 0).tp = false ∧
    (busy .display 0).sclk = .low := by decide

theorem test_witness_SetglobaldcMicroSteps : (busy (.setglobaldc 63) 0).fault = none ∧
    (busy (.setglobaldc 63) 0).tp = false ∧ (busy (.setglobaldc 63) 1).own = .busy (.setglobaldc 63) 1 ∧ 95 < 96 * 1 ∧
    (busy (.setglobaldc 63) 287).own = .busy (.setglobaldc 63) (2 + 3 * 95) ∧
    (busy (.setglobaldc 63) 289).own = .busy (.setglobaldc 63) (4 + 3 * 95) ∧
    (busy (.setglobaldc 63) 290).own = .busy (.setglobaldc 63) (288 * 1 + 2) ∧
    (busy (.setglobaldc 63) 293).own = .busy (.setglobaldc 63) (288 * 1 + 5) := by decide +kernel

theorem test_witness_SetglobaldcLoadsEveryChannel : (busy (.setglobaldc 32) 0).cfg.legal = true ∧
    (busy (.setglobaldc 32) 0).fault = none ∧ (busy (.setglobaldc 32) 0).own = .busy (.setglobaldc 32) 0 ∧
    (busy (.setglobaldc 32) 0).tp = false ∧ (busy (.setglobaldc 32) 0).sclk = .low ∧
    (busy (.setglobaldc 32) 0).xlat = .low := by decide

theorem test_witness_InitMicroSteps : (starting 0).own = .busy .init 0 ∧ (starting 4).own = .busy .init 4 ∧
    (293 < 288 * 1 + 6 ∧ (starting 298).own = .busy .init (5 + 293) ∧ (starting 298).tp = false) ∧
    (starting 299).own = .busy .init (288 * 1 + 11) ∧ (starting 300).own = .busy .init (288 * 1 + 12) ∧
    (578 < 576 * 1 + 3 ∧ (starting 879).own = .busy .init (288 * 1 + 13 + 578) ∧ (starting 879).tp = false) ∧
    (starting 880).own = .busy .init (864 * 1 + 16) ∧ (starting 880).fault = none := by decide +kernel

theorem test_witness_InitBringsTheBlockToOperation : (Config.mk 1 12).legal = true ∧ (Config.mk 4096 1).legal = true :=
  by decide

theorem test_witness_WaitHoldsUntilTheLatch : ({ busy .display 0 with tp := true } : State).fault = none ∧
    ({ busy .display 0 with tp := true } : State).own = .busy .display 0 ∧
    ({ busy .display 0 with tp := true } : State).tp = true ∧ ({ busy .display 0 with tp := true } : State).ie = true ∧
    ({ busy (.setglobaldc 7) 0 with tp := true } : State).own = .busy (.setglobaldc 7) 0 := by decide

theorem test_witness_ShiftingCommandsFrame : ∃ t u v, exec .display (busy .display 2) = .next t ∧
    exec (.setglobaldc 1) (busy (.setglobaldc 1) 2) = .next u ∧ exec .init (starting 3) = .next v ∧
    (busy .display 2).own ≠ .idle := by
  obtain ⟨t, h1⟩ := next_of_isSome (o := exec .display (busy .display 2)) (by decide +kernel)
  obtain ⟨u, h2⟩ := next_of_isSome (o := exec (.setglobaldc 1) (busy (.setglobaldc 1) 2)) (by decide +kernel)
  obtain ⟨v, h3⟩ := next_of_isSome (o := exec .init (starting 3)) (by decide +kernel)
  exact ⟨t, u, v, h1, h2, h3, by decide +kernel⟩

theorem test_witness_IsrLatchDecision : (idle false false).tp = false ∧
    ((idle true false).tp = true ∧ (idle true false).np = false) ∧ (idle true true).np = true ∧ (idle true true).Inv :=
  ⟨by decide, by decide, by decide, test_witness_inv_idle true true .low (by decide)⟩

theorem test_witness_IsrFourCases : (idle false true).tp = false ∧ (idle true true .high).tp = true ∧
    (idle true true .high).sclk = .low ∧ (idle true true .high).xlat = .low ∧ (idle true true .high).vprg = .low ∧
    (idle true true .high).cfg.frameBits ≤ (idle true true .high).sr.length ∧ (idle true true .high).np = true ∧
    (idle true true .high).sin = .high ∧ (idle true true).sin = .low ∧ (idle true false).np = false := by decide +kernel

theorem test_witness_IsrFrame : (idle false true).tp = false := by decide

theorem test_witness_InterruptFiresBetweenAnyOwnerSteps : (busy .display 5).fault = none ∧
    (busy .display 5).ie = true ∧ (starting 5).ie = false := by decide +kernel

theorem test_witness_OwnerResumesWhereItWas : ∃ t, (busy .display 2).tp = false ∧
    exec .display (busy .display 2) = .next t := by
  obtain ⟨t, h⟩ := next_of_isSome (o := exec .display (busy .display 2)) (by decide +kernel)
  exact ⟨t, by decide +kernel, h⟩

theorem test_witness_StepRunsTheDecodedInstruction : (ready 1 12).fault = none ∧
    (busy .display 2).own = .busy .display 2 ∧ (ready 1 12).own = .idle ∧ (ready 1 12).host = [] ∧
    decode 0x50000000 = .ok .display ∧ Instr.wf .display = true := by decide +kernel

theorem test_witness_ResetValues : 23 < 24 * (Config.mk 1 12).numDrivers := by decide

theorem test_witness_CreateFixesTheParameters : ((1 ≤ 1 ∧ 1 ≤ 4096) ∧ 1 ≤ 1 ∧ 1 ≤ 12) ∧
    ((1 ≤ 4096 ∧ 4096 ≤ 4096) ∧ 1 ≤ 12 ∧ 12 ≤ 12) ∧ ¬ ((1 ≤ 4097 ∧ 4097 ≤ 4096) ∧ 1 ≤ 12 ∧ 12 ≤ 12) ∧
    ¬ ((1 ≤ 1 ∧ 1 ≤ 4096) ∧ 1 ≤ 13 ∧ 13 ≤ 12) ∧ ¬ ((1 ≤ 0 ∧ 0 ≤ 4096) ∧ 1 ≤ 12 ∧ 12 ≤ 12) := by decide

theorem test_witness_InvariantHoldsAtReset : (Config.mk 4096 1).legal = true := by decide

theorem test_witness_EveryStepKeepsTheInvariant : ∃ t, (busy .display 2).Inv ∧
    stepWith false (busy .display 2) = .next t := by
  obtain ⟨t, h⟩ := next_of_isSome (o := stepWith false (busy .display 2)) (by decide +kernel)
  exact ⟨t, test_witness_inv_busy .display 2 (by decide +kernel) (by decide +kernel), h⟩

theorem test_witness_EveryStepKeepsTheBufferCanonical : ∃ t, (busy (.setled 15 1) 0).FbOk ∧
    stepWith false (busy (.setled 15 1) 0) = .next t := by
  obtain ⟨t, h⟩ := next_of_isSome (o := stepWith false (busy (.setled 15 1) 0)) (by decide)
  exact ⟨t, ⟨by decide, by decide⟩, h⟩

theorem test_witness_InvariantStatesAlwaysStep : (busy (.getled 15) 0).Inv ∧ (busy (.getled 15) 0).fault = none :=
  ⟨test_witness_inv_busy (.getled 15) 0 (by decide) (by decide), by decide⟩

theorem test_witness_ReachableLowBitsZero : Reachable (State.initial ⟨1, 8⟩) ∧
    ∃ f, (State.initial ⟨1, 8⟩).fieldRead 15 = .ok f := ⟨.create ⟨1, 8⟩ [] rfl, _, rfl⟩

/-- A frame pending, latched by the interrupt; and DISPLAY's last micro-step, which makes one pending. -/
theorem test_witness_PendingFrameIsWhatGetsLatched : ∃ t u, (idle true false).Inv ∧
    (idle true false).Pending (List.replicate 191 false ++ [true]) ∧ stepWith true (idle true false) = .next t ∧
    (busy .display 578).Inv ∧ (busy .display 578).Pending [] ∧ stepWith false (busy .display 578) = .next u := by
  obtain ⟨t, h1⟩ := next_of_isSome (o := stepWith true (idle true false)) (by decide +kernel)
  obtain ⟨u, h2⟩ := next_of_isSome (o := stepWith false (busy .display 578)) (by decide +kernel)
  refine ⟨t, u, test_witness_inv_idle true false .low (by decide), fun _ => ?_, h1,
    test_witness_inv_busy .display 578 (by decide +kernel) (by decide +kernel), fun h => Bool.noConfusion h, h2⟩
  decide +kernel

theorem test_witness_FramesArePublishedWhole : ∃ t, ReachableWith (State.initial ⟨1, 12⟩) none ∧
    stepWith false (State.initial ⟨1, 12⟩) = .next t := ⟨_, .create ⟨1, 12⟩ [] rfl, rfl⟩

theorem test_witness_DotCorrectionLatchesItsOwnValue : ∃ t u, (busy (.setglobaldc 32) 290).Inv ∧
    stepWith false (busy (.setglobaldc 32) 290) = .next t ∧
    (busy (.setglobaldc 32) 290).own = .busy (.setglobaldc 32) (288 * 1 + 2) ∧ (starting 295).Inv ∧
    stepWith false (starting 295) = .next u ∧ (starting 295).own = .busy .init (288 * 1 + 7) := by
  obtain ⟨t, h1⟩ := next_of_isSome (o := stepWith false (busy (.setglobaldc 32) 290)) (by decide +kernel)
  obtain ⟨u, h2⟩ := next_of_isSome (o := stepWith false (starting 295)) (by decide +kernel)
  exact ⟨t, u, test_witness_inv_busy (.setglobaldc 32) 290 (by decide +kernel) (by decide +kernel), h1, rfl,
    test_witness_inv_starting 295 (by decide +kernel) (by decide +kernel) (by decide), h2, rfl⟩

theorem test_witness_BufferIsConstantDuringDisplay : ∃ t, (busy .display 2).own = .busy .display 2 ∧
    stepWith false (busy .display 2) = .next t := by
  obtain ⟨t, h⟩ := next_of_isSome (o := stepWith false (busy .display 2)) (by decide +kernel)
  exact ⟨t, rfl, h⟩

theorem test_witness_TransferPendingWriters : ∃ t u, stepWith false (busy .display 578) = .next t ∧
    (busy .display 578).tp = false ∧ t.tp = true ∧ stepWith true (idle true true) = .next u ∧
    (idle true true).tp = true ∧ u.tp = false ∧ ({ busy .display 0 with tp := true } : State).tp = true := by
  have h3 : (next? (stepWith false (busy .display 578))).map (fun t => t.tp) = some true := by decide +kernel
  have h4 : (next? (stepWith true (idle true true))).map (fun t => t.tp) = some false := by decide +kernel
  obtain ⟨t, h1⟩ := next_of_isSome (o := stepWith false (busy .display 578)) (by decide +kernel)
  obtain ⟨u, h2⟩ := next_of_isSome (o := stepWith true (idle true true)) (by decide +kernel)
  rw [h1] at h3
  rw [h2] at h4
  exact ⟨t, u, h1, rfl, Option.some.inj h3, h2, rfl, Option.some.inj h4, rfl⟩

theorem test_witness_NeedPulseWriters : ∃ t u v, stepWith false (busy (.setglobaldc 0) 293) = .next t ∧
    (busy (.setglobaldc 0) 293).np = false ∧ t.np = true ∧ stepWith true (idle true true) = .next u ∧
    (idle true true).np = true ∧ u.np = false ∧ exec .display (busy .display 2) = .next v := by
  have h3 : (next? (stepWith false (busy (.setglobaldc 0) 293))).map (fun t => t.np) = some true := by decide +kernel
  have h4 : (next? (stepWith true (idle true true))).map (fun t => t.np) = some false := by decide +kernel
  obtain ⟨t, h1⟩ := next_of_isSome (o := stepWith false (busy (.setglobaldc 0) 293)) (by decide +kernel)
  obtain ⟨u, h2⟩ := next_of_isSome (o := stepWith true (idle true true)) (by decide +kernel)
  obtain ⟨v, h5⟩ := next_of_isSome (o := exec .display (busy .display 2)) (by decide +kernel)
  rw [h1] at h3
  rw [h2] at h4
  exact ⟨t, u, v, h1, rfl, Option.some.inj h3, h2, rfl, Option.some.inj h4, h5⟩

theorem test_witness_InterruptEnableIsForEver : ∃ t, (starting 300).fault = none ∧
    (starting 300).own = .busy .init (288 * 1 + 12) ∧ stepWith true (ready 1 12) = .next t ∧ (ready 1 12).ie = true :=
  ⟨_, rfl, rfl, rfl, rfl⟩

theorem test_witness_NothingIsUndone : ∃ t, stepWith true (ready 1 12) = .next t ∧
    (ready 1 12).line .sin ≠ .undriven ∧ (ready 1 12).life = .ready := ⟨_, rfl, by decide, rfl⟩

theorem test_witness_HangIsUnreachable :
    ({ busy .display 0 with
      tp := true
      ie := false } : State).fault = none ∧
    ({ busy (.setglobaldc 1) 0 with
      tp := true
      ie := false } : State).own = .busy (.setglobaldc 1) 0 := by decide

theorem test_witness_CommandsCompleteUnderFairSchedules : (busy .display 0).Inv ∧ (busy .display 0).fault = none ∧
    (busy .display 0).own = .busy .display 0 ∧ FairSchedule (fun n => n % 2 == 0) := by
  refine ⟨test_witness_inv_busy .display 0 (by decide) (by decide +kernel), rfl, rfl, fun n => ⟨?_, ?_⟩⟩
  · exact ⟨2 * n, by omega, by simp⟩
  · exact ⟨2 * n + 1, by omega, by simp⟩

theorem test_witness_IdleStability : (ready 1 12).tp = false := by decide

theorem test_witness_LinesAndChainFollowTheTrace : ∃ t, (State.initial ⟨1, 12⟩).TraceOk ∧
    stepWith false { State.initial ⟨1, 12⟩ with host := [0x10000000] } = .next t :=
  ⟨_, ⟨fun l => by cases l <;> rfl, rfl, rfl, rfl, rfl, rfl⟩, rfl⟩

theorem test_witness_LineWriteChangesOneLine : Line.sclk ≠ .sin := by decide

theorem test_witness_ChainObserver : ((idle true true .high).sclk = .low ∧ (idle true true .high).sin = .high) ∧
    (idle true true).sin = .low ∧ ((idle true true).xlat = .low ∧ (idle true true).vprg = .low ∧
      (idle true true).cfg.frameBits ≤ (idle true true).sr.length) ∧
    ((busy (.setglobaldc 1) 290).xlat = .low ∧ (busy (.setglobaldc 1) 290).vprg = .high ∧
      (busy (.setglobaldc 1) 290).cfg.dcBits ≤ (busy (.setglobaldc 1) 290).sr.length) ∧
    (Line.sclk, false) ≠ (.sclk, true) := by decide +kernel

theorem test_witness_VisibleOutput : (starting 5).blank = .high ∧ (ready 1 12).blank = .low ∧
    15 < (ready 1 12).cfg.channels ∧ (ready 1 12).liveGs.length = (ready 1 12).cfg.frameBits ∧
    (ready 1 12).liveDc.length = (ready 1 12).cfg.dcBits := by decide +kernel

theorem test_witness_EndedRunIsFinal : ∃ t u, (ready 1 12).ended ∧ stepWith true (ready 1 12) = .next t ∧
    stepWith false (ready 1 12) = .next u := ⟨_, _, ⟨rfl, rfl, rfl, rfl⟩, rfl, rfl⟩

end Sys2Proof.Tests
end

/-! PROOFS. R24: who writes NP and who reads it. -/

namespace Sys2Proof.Machine

/-! ### The FSETs of the micro-programs (R129, R141, R170) -/

/-- The micro-operations of a transmitted bit write no flag when its write of SIN writes none (R124). -/
theorem bitTriple_ne_fset {sin : MicroOp} {r : Nat} {f : Flag} {b : Bool} (hsin : sin ≠ .fset f b) :
    (bitTriple sin)[r]? ≠ some (.fset f b) := by
  match r with
  | 0 => simpa [bitTriple] using hsin
  | 1 | 2 => simp [bitTriple]
  | r + 3 => simp [bitTriple]

/-- DISPLAY's one FSET is its last micro-operation, which sets TP (R129). -/
theorem displayProgram_fset {n u : Nat} {f : Flag} {b : Bool} (h : (displayProgram n)[u]? = some (.fset f b)) :
    f = .tp ∧ b = true ∧ u = 576 * n + 2 := by
  obtain ⟨hu, -⟩ := List.getElem?_eq_some_iff.mp h
  rw [length_displayProgram] at hu
  match u with
  | 0 => cases h
  | 1 => cases h
  | u + 2 =>
    by_cases hlast : u + 2 = 576 * n + 2
    · rw [hlast, displayProgram_last] at h
      cases h
      exact ⟨rfl, rfl, hlast⟩
    · have hbit := displayProgram_bit n (u / 3) (u % 3) (by omega) (by omega)
      rw [show 2 + (3 * (u / 3) + u % 3) = u + 2 by omega, h] at hbit
      exact absurd hbit.symm (bitTriple_ne_fset (by simp))

/-- SETGLOBALDC's one FSET is its last micro-operation, which sets NP (R140, R141). -/
theorem dcProgram_fset {n v u : Nat} {f : Flag} {b : Bool} (h : (dcProgram n v)[u]? = some (.fset f b)) :
    f = .np ∧ b = true ∧ u = 288 * n + 5 := by
  match u with
  | 0 => cases h
  | 1 => cases h
  | u + 2 =>
    by_cases hshift : u < 288 * n
    · have hbit := dcProgram_bit n v (u / 3) (u % 3) (by omega) (by omega)
      rw [show 2 + (3 * (u / 3) + u % 3) = u + 2 by omega, h] at hbit
      exact absurd hbit.symm (bitTriple_ne_fset (by simp))
    · obtain ⟨r, rfl⟩ := Nat.exists_eq_add_of_le (Nat.le_of_not_lt hshift)
      rw [show 288 * n + r + 2 = 288 * n + 2 + r by omega, dcProgram_tail] at h
      match r with
      | 0 | 1 | 2 => cases h
      | 3 => cases h; exact ⟨rfl, rfl, rfl⟩
      | r + 4 => cases h

/-- INIT's FSETs are those of its dot-correction load (R172) and of its display (R175). -/
theorem initProgram_fset {n u : Nat} {f : Flag} {b : Bool} (h : (initProgram n)[u]? = some (.fset f b)) :
    b = true ∧ ((f = .np ∧ u = 288 * n + 10) ∨ (f = .tp ∧ u = 864 * n + 15)) := by
  obtain ⟨hu, -⟩ := List.getElem?_eq_some_iff.mp h
  rw [length_initProgram] at hu
  rcases Nat.lt_or_ge u 5 with hpins | hpins
  · rw [initProgram_pins n u hpins] at h
    match u with
    | 0 | 1 | 2 | 3 | 4 => cases h
  obtain ⟨r, rfl⟩ := Nat.exists_eq_add_of_le hpins
  rcases Nat.lt_or_ge r (288 * n + 6) with hdc | hdc
  · rw [initProgram_dc n r hdc] at h
    obtain ⟨hf, hb, hr⟩ := dcProgram_fset h
    exact ⟨hb, .inl ⟨hf, by omega⟩⟩
  obtain ⟨k, rfl⟩ := Nat.exists_eq_add_of_le hdc
  match k with
  | 0 => rw [show 5 + (288 * n + 6 + 0) = 288 * n + 11 by omega, initProgram_timers] at h; cases h
  | 1 => rw [show 5 + (288 * n + 6 + 1) = 288 * n + 12 by omega, initProgram_interrupt] at h; cases h
  | k + 2 =>
    rw [show 5 + (288 * n + 6 + (k + 2)) = 288 * n + 13 + k by omega] at h
    rcases Nat.lt_or_ge k (576 * n + 3) with hdisp | hdisp
    · rw [initProgram_display n k hdisp] at h
      obtain ⟨hf, hb, hk⟩ := displayProgram_fset h
      exact ⟨hb, .inr ⟨hf, by omega⟩⟩
    · rw [show 288 * n + 13 + k = 864 * n + 16 by omega, initProgram_last] at h
      cases h

/-- The owner is at the micro-step that sets NP: SETGLOBALDC's last, or INIT's of its load (R140, R172). -/
def State.atNpWrite (s : State) : Prop :=
  (∃ v, s.own = .busy (.setglobaldc v) (288 * s.cfg.numDrivers + 5)) ∨
    s.own = .busy .init (288 * s.cfg.numDrivers + 10)

/-- A command's micro-operation that writes NP sets it, at the positions of `State.atNpWrite` only. -/
theorem programOf_fset_np {s : State} {i : Instr} {u : Nat} {b : Bool} (hown : s.own = .busy i u)
    (h : (programOf s.cfg.numDrivers i)[u]? = some (.fset .np b)) : b = true ∧ s.atNpWrite := by
  cases i with
  | init =>
    obtain ⟨hb, ⟨-, hu⟩ | ⟨hf, -⟩⟩ := initProgram_fset h
    · exact ⟨hb, .inr (by rw [hown, hu])⟩
    · cases hf
  | display =>
    obtain ⟨hf, -⟩ := displayProgram_fset h
    cases hf
  | setglobaldc v =>
    obtain ⟨-, hb, hu⟩ := dcProgram_fset h
    exact ⟨hb, .inl ⟨v, by rw [hown, hu]⟩⟩
  | clear | setled | getled =>
    obtain ⟨hu, hop⟩ := List.getElem?_eq_some_iff.mp h
    cases u with
    | zero => cases hop
    | succ u => simp [programOf, clearProgram, setledProgram, getledProgram] at hu

/-! ### The owner's step, case by case -/

theorem State.ownerCommand_of_idle {cmd : Instr} {checks : List (Option FaultCode)} {prog : List MicroOp} {s : State}
    (hfault : s.fault = none) (hown : s.own = .idle) : s.ownerCommand cmd checks prog = .next (s.issue cmd checks) := by
  simp only [State.ownerCommand, hfault, hown]

theorem State.ownerCommand_of_busy {cmd : Instr} {checks : List (Option FaultCode)} {prog : List MicroOp} {upc : Nat}
    {s : State} (hfault : s.fault = none) (hown : s.own = .busy cmd upc) :
    s.ownerCommand cmd checks prog = s.microStep cmd prog upc := by
  simp only [State.ownerCommand, hfault, hown, if_true]

/-- R121: a hold changes nothing. -/
theorem State.microStep_of_holds {cmd : Instr} {prog : List MicroOp} {upc : Nat} {op : MicroOp} {s : State}
    (hop : prog[upc]? = some op) (hhold : op.holds s = true) : s.microStep cmd prog upc = .next s := by
  simp only [State.microStep, hop, hhold, if_true]

/-- R120: a micro-operation that does not hold is performed, and the owner moves on. -/
theorem State.microStep_of_run {cmd : Instr} {prog : List MicroOp} {upc : Nat} {op : MicroOp} {s u : State}
    (hop : prog[upc]? = some op) (hhold : op.holds s = false) (hrun : op.run s = .ok u) :
    s.microStep cmd prog upc = .next { u with own := ownAfter cmd prog.length upc } := by
  simp [State.microStep, hop, hhold, hrun]

/-! ### What the owner does to NP -/

/-- Only an FSET of NP writes NP. -/
theorem MicroOp.run_np {op : MicroOp} {s t : State} (h : op.run s = .ok t) :
    t.np = s.np ∨ op = .fset .np t.np := by
  cases op with
  | waitTp0 | gset | ieset | lifeset => cases h; exact .inl rfl
  | lset l b => cases h; exact .inl (State.driveLine_np l b s)
  | sinv b => cases h; exact .inl (State.driveLine_np .sin b s)
  | fset f b =>
    cases h
    cases f with
    | tp => exact .inl rfl
    | np => exact .inr rfl
  | sinfb p =>
    simp only [MicroOp.run, State.driveSinFromFb] at h
    split at h
    · cases h; exact .inl (State.driveLine_np ..)
    · cases h
  | acc a =>
    cases a with
    | clear => rw [State.clearBody_ok h]; exact .inl rfl
    | setled c v => rw [(State.fieldWrite_ok h).2]; exact .inl rfl
    | getled c =>
      simp only [MicroOp.run, Accessor.run, State.getledBody] at h
      split at h
      · cases h; exact .inl rfl
      · cases h

@[simp] theorem State.issue_np (cmd : Instr) (checks : List (Option FaultCode)) (s : State) :
    (s.issue cmd checks).np = s.np := by
  unfold State.issue; split <;> rfl

/-- What a command's step does to NP: nothing, or it sets it at the micro-step that does. -/
theorem exec_np {i : Instr} {s t : State} (h : exec i s = .next t) :
    t.np = s.np ∨ (t.np = true ∧ s.atNpWrite) := by
  rw [exec_eq] at h
  obtain ⟨-, ⟨-, rfl⟩ | ⟨upc, hown, hmicro⟩⟩ := State.ownerCommand_cases h
  · exact .inl (State.issue_np ..)
  · obtain ⟨op, hop, ⟨-, rfl⟩ | ⟨-, u, hrun, rfl⟩⟩ := State.microStep_cases hmicro
    · exact .inl rfl
    · refine (MicroOp.run_np hrun).imp_right fun hset => programOf_fset_np hown ?_
      rw [hop, hset]

/-- What the owner's step does to NP: nothing, or it sets it at the micro-step that does. -/
theorem State.ownerStep_np {s t : State} (h : s.ownerStep = .next t) :
    t.np = s.np ∨ (t.np = true ∧ s.atNpWrite) := by
  obtain ⟨i, u, -, hexec⟩ | ⟨-, -, rfl⟩ | ⟨w, rest, i, -, -, -, hexec⟩ | ⟨w, rest, e, -, -, -, rfl⟩ :=
    State.ownerStep_cases h
  · exact exec_np hexec
  · exact .inl rfl
  · exact exec_np (s := { s with host := rest }) hexec
  · exact .inl rfl

/-- R140: SETGLOBALDC's last micro-step sets NP and ends the command. -/
theorem exec_setglobaldc_last {s : State} {v : Nat} (hfault : s.fault = none)
    (hown : s.own = .busy (.setglobaldc v) (288 * s.cfg.numDrivers + 5)) :
    exec (.setglobaldc v) s = .next { s with np := true, own := .idle } := by
  have hlast : (dcProgram s.cfg.numDrivers v)[288 * s.cfg.numDrivers + 5]? = some (.fset .np true) :=
    dcProgram_tail s.cfg.numDrivers v 3
  rw [exec_eq, State.ownerCommand_of_busy hfault hown, programOf, State.microStep_of_run hlast rfl rfl, ownAfter,
    length_dcProgram, if_neg (by omega)]
  rfl

/-! ### What a firing does to NP (R152, R153) -/

/-- R152, R153: a firing clears NP when it latches, and else keeps it. -/
@[simp] theorem State.isr_np (s : State) : s.isr.np = (s.np && !s.tp) := by
  cases htp : s.tp <;> cases hnp : s.np <;>
    simp [State.isr, State.isrEntry, State.isrLatch, State.isrExtraPulse, State.isrExit, htp, hnp]

/-- R151 to R154: the events of a firing that latches and owes the extra clock pulse. -/
theorem State.isr_trace_of_tp_np {s : State} (htp : s.tp = true) (hnp : s.np = true) :
    s.isr.trace = s.trace ++ [.set .blank true, .gsclk false, .set .xlat true, .set .xlat false, .set .sclk true,
      .set .sclk false, .set .blank false, .gsclk true] := by
  simp [State.isr, State.isrEntry, State.isrLatch, State.isrExtraPulse, State.isrExit, htp, hnp]

/-! ### One step of the machine -/

/-- What one step does to NP: nothing, the owner sets it, or a firing that latches clears it. -/
theorem stepWith_np {fires : Bool} {s t : State} (h : stepWith fires s = .next t) :
    t.np = s.np ∨ (t.np = true ∧ (s.ie && fires) = false ∧ s.atNpWrite) ∨
      (t.np = false ∧ s.ie = true ∧ fires = true ∧ s.tp = true) := by
  obtain ⟨-, ⟨hie, hfires, rfl⟩ | ⟨hnofire, howner⟩⟩ := stepWith_cases h
  · cases htp : s.tp with
    | false => exact .inl (by simp [htp])
    | true => exact .inr (.inr ⟨by simp [htp], hie, hfires, rfl⟩)
  · exact (State.ownerStep_np howner).imp_right fun ⟨hset, hat⟩ => .inl ⟨hset, hnofire, hat⟩

/-! ### The owner does not read NP -/

/-- The chain's reaction to a line write does not depend on NP (R200). -/
theorem State.observe_withNp (l : Line) (x b : Bool) (s : State) :
    { s with np := b }.observe l x = { s.observe l x with np := b } := by
  unfold State.observe
  split
  · dsimp only; split
    · unfold State.takeBit; dsimp only; split <;> rfl
    · rfl
  · dsimp only; split
    · unfold State.latch; dsimp only; split <;> rfl
    · rfl
  · rfl

theorem State.driveLine_withNp (l : Line) (x b : Bool) (s : State) :
    { s with np := b }.driveLine l x = { s.driveLine l x with np := b } := by
  rw [State.driveLine, State.observe_withNp]
  cases l <;> rfl

/-- A micro-operation's next state is the same but for NP whatever NP was. -/
theorem MicroOp.run_withNp {op : MicroOp} {s t : State} (b : Bool) (h : op.run s = .ok t) :
    ∃ b', op.run { s with np := b } = .ok { t with np := b' } := by
  cases op with
  | waitTp0 | gset | ieset | lifeset => cases h; exact ⟨b, rfl⟩
  | lset l x => cases h; exact ⟨b, congrArg Except.ok (State.driveLine_withNp l x b s)⟩
  | sinv x => cases h; exact ⟨b, congrArg Except.ok (State.driveLine_withNp .sin x b s)⟩
  | fset f x =>
    cases h
    cases f with
    | tp => exact ⟨b, rfl⟩
    | np => exact ⟨x, rfl⟩
  | sinfb p =>
    refine ⟨b, ?_⟩
    simp only [MicroOp.run, State.driveSinFromFb] at h ⊢
    rw [show ({ s with np := b } : State).memRead (p / 8) = s.memRead (p / 8) from rfl]
    split at h
    · cases h; exact congrArg Except.ok (State.driveLine_withNp ..)
    · cases h
  | acc a =>
    refine ⟨b, ?_⟩
    cases a with
    | clear =>
      rw [State.clearBody_ok h]
      exact State.zeroBytes_of_lt _ { s with np := b } fun i hi => List.mem_range.mp hi
    | setled c v =>
      obtain ⟨hbyte, rfl⟩ := State.fieldWrite_ok h
      exact State.fieldWrite_of_byte (s := { s with np := b }) _ hbyte
    | getled c =>
      simp only [MicroOp.run, Accessor.run, State.getledBody] at h ⊢
      rw [show ({ s with np := b } : State).fieldRead c = s.fieldRead c from rfl]
      split at h
      · cases h; rfl
      · cases h

/-- A hold does not read NP (R121). -/
theorem MicroOp.holds_withNp (op : MicroOp) (b : Bool) (s : State) : op.holds { s with np := b } = op.holds s := by
  cases op <;> rfl

theorem State.microStep_withNp {cmd : Instr} {prog : List MicroOp} {upc : Nat} {s t : State} (b : Bool)
    (h : s.microStep cmd prog upc = .next t) :
    ∃ b', { s with np := b }.microStep cmd prog upc = .next { t with np := b' } := by
  obtain ⟨op, hop, ⟨hhold, rfl⟩ | ⟨hhold, u, hrun, rfl⟩⟩ := State.microStep_cases h
  · exact ⟨b, State.microStep_of_holds hop (by rw [MicroOp.holds_withNp, hhold])⟩
  · obtain ⟨b', hrun'⟩ := MicroOp.run_withNp b hrun
    exact ⟨b', State.microStep_of_run hop (by rw [MicroOp.holds_withNp, hhold]) hrun'⟩

/-- The checks at issue do not read NP (R185). -/
theorem State.checksOf_withNp (i : Instr) (b : Bool) (s : State) : { s with np := b }.checksOf i = s.checksOf i := by
  cases i <;> rfl

theorem State.issue_withNp (cmd : Instr) (checks : List (Option FaultCode)) (b : Bool) (s : State) :
    { s with np := b }.issue cmd checks = { s.issue cmd checks with np := b } := by
  unfold State.issue; split <;> rfl

/-- A command's next state is the same but for NP whatever NP was. -/
theorem exec_withNp {i : Instr} {s t : State} (b : Bool) (h : exec i s = .next t) :
    ∃ b', exec i { s with np := b } = .next { t with np := b' } := by
  rw [exec_eq] at h
  simp only [exec_eq, State.checksOf_withNp]
  obtain ⟨hfault, ⟨hown, rfl⟩ | ⟨upc, hown, hmicro⟩⟩ := State.ownerCommand_cases h
  · exact ⟨b, by rw [State.ownerCommand_of_idle (s := { s with np := b }) hfault hown, State.issue_withNp]⟩
  · obtain ⟨b', hmicro'⟩ := State.microStep_withNp b hmicro
    exact ⟨b', by rw [State.ownerCommand_of_busy (s := { s with np := b }) hfault hown, hmicro']⟩

/-- Settles O50: of the owner's micro-operations only the last of the dot-correction program writes NP, of a firing only
the latch decision; and every operation of the owner commutes with a change of NP. -/
theorem needPulseWriters : Obligations.NeedPulseWriters := by
  refine ⟨fun c => rfl, fun s t fires h => ⟨fun hs ht => ?_, fun hs ht => ?_⟩,
    fun s v => exec_setglobaldc_last, fun s htp => ⟨by simp [htp], State.isr_trace_of_tp_np htp⟩,
    fun i s t b h => ?_⟩
  · obtain hsame | ⟨-, hset⟩ | ⟨hclear, -⟩ := stepWith_np h
    · simp [hs, ht] at hsame
    · exact hset
    · simp [ht] at hclear
  · obtain hsame | ⟨hset, -⟩ | ⟨-, hfiring⟩ := stepWith_np h
    · simp [hs, ht] at hsame
    · simp [ht] at hset
    · exact hfiring
  · obtain ⟨b', h'⟩ := exec_withNp b h
    exact ⟨_, h', rfl⟩

end Sys2Proof.Machine

/-! PROOFS. R100: a channel's field, byte by byte and bit by bit. -/

namespace Sys2Proof.Machine

/-! ### Reading back a written field -/

theorem fieldAligned_iff {c : Nat} : fieldAligned c = true ↔ 12 * c % 8 = 0 := decide_eq_true_iff

/-- The field of the two written bytes is the value written (R100). -/
theorem fieldOfBytes_written (c : Nat) (v : Field) (b0 b1 : Byte) :
    fieldOfBytes c (fieldFirstByte c v b0) (fieldSecondByte c v b1) = v := by
  unfold fieldOfBytes fieldFirstByte fieldSecondByte
  split
  · rw [BitVec.extractLsb'_append_eq_left]
    exact BitVec.extractLsb'_append_extractLsb'
  · rw [BitVec.extractLsb'_append_eq_right]
    exact BitVec.extractLsb'_append_extractLsb'

theorem Memory.read_fieldWritten_first {m : Memory} (c : Nat) (v : Field) (h : Memory.wf m = true) :
    Memory.read (fieldWritten m c v) (fieldByte c) = fieldFirstByte c v (Memory.read m (fieldByte c)) := by
  rw [fieldWritten, Memory.read_write_ne _ _ (by omega), Memory.read_write_same _ _ h]

theorem Memory.read_fieldWritten_second {m : Memory} (c : Nat) (v : Field) (h : Memory.wf m = true) :
    Memory.read (fieldWritten m c v) (fieldByte c + 1) =
      fieldSecondByte c v (Memory.read m (fieldByte c + 1)) := by
  rw [fieldWritten, Memory.read_write_same _ _ (Memory.wf_write _ _ h)]

theorem Memory.read_fieldWritten_ne (m : Memory) {c k : Nat} (v : Field) (h0 : k ≠ fieldByte c)
    (h1 : k ≠ fieldByte c + 1) : Memory.read (fieldWritten m c v) k = Memory.read m k := by
  rw [fieldWritten, Memory.read_write_ne _ _ h1, Memory.read_write_ne _ _ h0]

/-- A written field reads back as the value written (R100). -/
theorem State.fieldRead_fieldWritten {s : State} {c : Nat} (v : Field) (h : Memory.wf s.fb = true)
    (hc : c < s.cfg.channels) : ({ s with fb := fieldWritten s.fb c v } : State).fieldRead c = .ok v := by
  rw [State.fieldRead_of_lt (s := { s with fb := fieldWritten s.fb c v }) hc, Memory.read_fieldWritten_first c v h,
    Memory.read_fieldWritten_second c v h, fieldOfBytes_written]

/-! ### The bits beside a field -/

/-- The byte FB[k] keeps its bits before the field: none for an even channel, its high nibble for an odd one. -/
theorem bitOfByte_fieldFirstByte {c p : Nat} (v : Field) (b : Byte) (hbyte : p / 8 = fieldByte c) (hp : p < 12 * c) :
    bitOfByte p (fieldFirstByte c v b) = bitOfByte p b := by
  unfold fieldByte at hbyte
  have hphase : 12 * c % 8 ≠ 0 := by omega
  have hhigh : 4 ≤ 7 - p % 8 := by omega
  rw [fieldFirstByte, if_neg (mt fieldAligned_iff.mp hphase), bitOfByte, BitVec.getLsbD_append,
    if_neg (Nat.not_lt.mpr hhigh), BitVec.getLsbD_extractLsb', Nat.add_sub_cancel' hhigh,
    decide_eq_true (by omega), Bool.true_and, bitOfByte]

/-- The byte FB[k+1] keeps its bits after the field: its low nibble for an even channel, none for an odd one. -/
theorem bitOfByte_fieldSecondByte {c p : Nat} (v : Field) (b : Byte) (hbyte : p / 8 = fieldByte c + 1)
    (hp : 12 * c + 12 ≤ p) : bitOfByte p (fieldSecondByte c v b) = bitOfByte p b := by
  unfold fieldByte at hbyte
  have hphase : 12 * c % 8 = 0 := by omega
  have hlow : 7 - p % 8 < 4 := by omega
  rw [fieldSecondByte, if_pos (fieldAligned_iff.mpr hphase), bitOfByte, BitVec.getLsbD_append, if_pos hlow,
    BitVec.getLsbD_extractLsb', Nat.zero_add, decide_eq_true hlow, Bool.true_and, bitOfByte]

/-- Writing a field changes no buffer bit outside it (R100). -/
theorem Memory.bit_fieldWritten {m : Memory} {c p : Nat} (v : Field) (h : Memory.wf m = true)
    (hp : p < 12 * c ∨ 12 * c + 12 ≤ p) : Memory.bit (fieldWritten m c v) p = Memory.bit m p := by
  unfold Memory.bit
  by_cases h0 : p / 8 = fieldByte c
  · have hbefore : p < 12 * c := by unfold fieldByte at h0; omega
    rw [h0, Memory.read_fieldWritten_first c v h, bitOfByte_fieldFirstByte v _ h0 hbefore]
  · by_cases h1 : p / 8 = fieldByte c + 1
    · have hafter : 12 * c + 12 ≤ p := by unfold fieldByte at h1; omega
      rw [h1, Memory.read_fieldWritten_second c v h, bitOfByte_fieldSecondByte v _ h1 hafter]
    · rw [Memory.read_fieldWritten_ne m v h0 h1]

/-! ### Both parities of the channel -/

/-- Settles O6: the model's field functions branch on the parity as R100 does, and the bits beside the field are the
nibble that `fieldFirstByte` or `fieldSecondByte` carries over. -/
theorem fieldReadAndFieldWrite : Obligations.FieldReadAndFieldWrite := by
  intro s c v hfb hc
  have hread := State.fieldRead_of_lt (s := s) (c := c) hc
  have hfirst := Memory.read_fieldWritten_first c v hfb.canonical
  have hsecond := Memory.read_fieldWritten_second c v hfb.canonical
  refine ⟨fun heven => ?_, fun hodd => ?_, fieldWritten s.fb c v, State.fieldWrite_of_lt v hc,
    fun heven => ?_, fun hodd => ?_, fun p => Memory.bit_fieldWritten v hfb.canonical,
    State.fieldRead_fieldWritten v hfb.canonical hc⟩
  · exact hread.trans (congrArg Except.ok (if_pos (fieldAligned_iff.mpr heven)))
  · exact hread.trans (congrArg Except.ok (if_neg (mt fieldAligned_iff.mp hodd)))
  · have haligned := fieldAligned_iff.mpr heven
    exact ⟨hfirst.trans (if_pos haligned), hsecond.trans (if_pos haligned)⟩
  · have haligned := mt fieldAligned_iff.mp hodd
    exact ⟨hfirst.trans (if_neg haligned), hsecond.trans (if_neg haligned)⟩

end Sys2Proof.Machine

/-! PROOFS. R107: the accessors have no hardware effect. -/

namespace Sys2Proof.Machine

/-! ### The bodies of the accessors -/

theorem State.getledBody_of_read {c : Nat} {f : Field} {s : State} (h : s.fieldRead c = .ok f) :
    s.getledBody c = .ok { s with resp := s.resp ++ [intensityOf s.cfg f] } := by
  simp only [State.getledBody, h]

/-- What GETLED's body can do (R103). -/
theorem State.getledBody_ok {c : Nat} {s t : State} (h : s.getledBody c = .ok t) :
    ∃ f, s.fieldRead c = .ok f ∧ t = { s with resp := s.resp ++ [intensityOf s.cfg f] } := by
  cases hread : s.fieldRead c with
  | ok f =>
    rw [State.getledBody_of_read hread] at h
    exact ⟨f, rfl, (Except.ok.inj h).symm⟩
  | error e => simp only [State.getledBody, hread] at h; cases h

theorem State.clearBody_eq_zeroed (s : State) : s.clearBody =
    .ok { s with fb := (List.range s.cfg.fbBytes).foldl (fun m i => Memory.write m i 0) s.fb } :=
  State.zeroBytes_of_lt _ _ fun _ hi => List.mem_range.mp hi

/-- Zeroing bytes leaves every other byte alone. -/
theorem Memory.read_zeroed_of_not_mem {is : List Nat} (m : Memory) {k : Nat} (hk : k ∉ is) :
    Memory.read (is.foldl (fun m i => Memory.write m i 0) m) k = Memory.read m k := by
  induction is generalizing m with
  | nil => rfl
  | cons i is ih =>
    rw [List.mem_cons, not_or] at hk
    rw [List.foldl_cons, ih _ hk.2, Memory.read_write_ne m 0 hk.1]

/-- CLEAR's body leaves every byte outside the buffer alone. -/
theorem State.clearBody_read {s t : State} {k : Nat} (h : s.clearBody = .ok t) (hk : s.cfg.fbBytes ≤ k) :
    Memory.read t.fb k = Memory.read s.fb k := by
  rw [State.clearBody_ok h]
  exact Memory.read_zeroed_of_not_mem s.fb (by simpa using hk)

/-- An accessor's body writes FB and RESP alone (R101, R103, R106). -/
theorem Accessor.run_ok {a : Accessor} {s t : State} (h : a.run s = .ok t) :
    ∃ m r, t = { s with fb := m, resp := r } := by
  cases a with
  | clear => exact ⟨_, _, State.clearBody_ok h⟩
  | setled c v => exact ⟨_, _, (State.fieldWrite_ok h).2⟩
  | getled c =>
    obtain ⟨f, -, rfl⟩ := State.getledBody_ok h
    exact ⟨_, _, rfl⟩

/-! ### The step of an accessor's command -/

/-- The command whose body an accessor is. -/
def Accessor.command : Accessor → Instr
  | .clear => .clear
  | .setled c v => .setled c v
  | .getled c => .getled c

theorem exists_accessor_command {i : Instr} (h : i = .clear ∨ (∃ c v, i = .setled c v) ∨ ∃ c, i = .getled c) :
    ∃ a : Accessor, i = a.command := by
  obtain rfl | ⟨c, v, rfl⟩ | ⟨c, rfl⟩ := h
  · exact ⟨.clear, rfl⟩
  · exact ⟨.setled c v, rfl⟩
  · exact ⟨.getled c, rfl⟩

/-- An accessor's micro-program is its body, one micro-operation (R120). -/
theorem programOf_command (n : Nat) (a : Accessor) : programOf n a.command = [.acc a] := by
  cases a <;> rfl

/-- What the step of an accessor's command can do: issue it, or run its whole body and end it. It never holds. -/
theorem Accessor.exec_cases {a : Accessor} {s t : State} (h : exec a.command s = .next t) :
    s.fault = none ∧
      ((s.own = .idle ∧ t = s.issue a.command (s.checksOf a.command)) ∨
        (s.own = .busy a.command 0 ∧ ∃ u, a.run s = .ok u ∧ t = { u with own := .idle })) := by
  rw [exec_eq, programOf_command] at h
  obtain ⟨hfault, hissue | ⟨upc, hown, hmicro⟩⟩ := State.ownerCommand_cases h
  · exact ⟨hfault, .inl hissue⟩
  · obtain ⟨op, hop, hstep⟩ := State.microStep_cases hmicro
    cases upc with
    | succ upc => cases hop
    | zero =>
      cases hop
      obtain ⟨hhold, -⟩ | ⟨-, hrun⟩ := hstep
      · cases hhold
      · exact ⟨hfault, .inr ⟨hown, hrun⟩⟩

theorem Accessor.exec_of_idle {a : Accessor} {s : State} (hfault : s.fault = none) (hown : s.own = .idle) :
    exec a.command s = .next (s.issue a.command (s.checksOf a.command)) := by
  rw [exec_eq, State.ownerCommand_of_idle hfault hown]

theorem Accessor.exec_of_busy {a : Accessor} {s u : State} (hfault : s.fault = none)
    (hown : s.own = .busy a.command 0) (hrun : a.run s = .ok u) :
    exec a.command s = .next { u with own := .idle } := by
  rw [exec_eq, programOf_command, State.ownerCommand_of_busy hfault hown]
  exact State.microStep_of_run rfl rfl hrun

/-- The issue writes OWN or FAULT alone (R181, R185). -/
theorem State.issue_frame (cmd : Instr) (checks : List (Option FaultCode)) (s : State) :
    ∃ o f, s.issue cmd checks = { s with own := o, fault := f } := by
  unfold State.issue
  split
  · exact ⟨s.own, _, rfl⟩
  · exact ⟨_, s.fault, rfl⟩

/-- The step of an accessor's command writes FB, RESP, OWN and FAULT at most. -/
theorem Accessor.exec_frame {a : Accessor} {s t : State} (h : exec a.command s = .next t) :
    ∃ m r o f, t = { s with fb := m, resp := r, own := o, fault := f } := by
  obtain ⟨-, ⟨-, rfl⟩ | ⟨-, u, hrun, rfl⟩⟩ := Accessor.exec_cases h
  · obtain ⟨o, f, hissue⟩ := State.issue_frame a.command (s.checksOf a.command) s
    exact ⟨_, _, o, f, hissue⟩
  · obtain ⟨m, r, rfl⟩ := Accessor.run_ok hrun
    exact ⟨m, r, _, _, rfl⟩

/-- In progress, an accessor's command ends and raises no fault. -/
theorem Accessor.exec_ends {a : Accessor} {s t : State} (h : exec a.command s = .next t) (hown : s.own ≠ .idle) :
    t.own = .idle ∧ t.fault = s.fault := by
  obtain ⟨-, ⟨hidle, -⟩ | ⟨-, u, hrun, rfl⟩⟩ := Accessor.exec_cases h
  · exact absurd hidle hown
  · obtain ⟨m, r, rfl⟩ := Accessor.run_ok hrun
    exact ⟨rfl, rfl⟩

/-- FB and RESP after the step of an accessor's command: as before at its issue, else as its body leaves them. -/
theorem Accessor.exec_data {a : Accessor} {s t : State} (h : exec a.command s = .next t) :
    (t.fb = s.fb ∧ t.resp = s.resp) ∨ ∃ u, a.run s = .ok u ∧ t.fb = u.fb ∧ t.resp = u.resp := by
  obtain ⟨-, ⟨-, rfl⟩ | ⟨-, u, hrun, rfl⟩⟩ := Accessor.exec_cases h
  · obtain ⟨o, f, hissue⟩ := State.issue_frame a.command (s.checksOf a.command) s
    rw [hissue]
    exact .inl ⟨rfl, rfl⟩
  · exact .inr ⟨u, hrun, rfl, rfl⟩

/-! ### The accessors do not read TP or NP -/

/-- An accessor's body does the same whatever TP and NP are. -/
theorem Accessor.run_withFlags {a : Accessor} {s t : State} (x y : Bool) (h : a.run s = .ok t) :
    a.run { s with tp := x, np := y } = .ok { t with tp := x, np := y } := by
  cases a with
  | clear =>
    rw [State.clearBody_ok h]
    exact State.clearBody_eq_zeroed { s with tp := x, np := y }
  | setled c v =>
    obtain ⟨hbyte, rfl⟩ := State.fieldWrite_ok h
    exact State.fieldWrite_of_byte (s := { s with tp := x, np := y }) _ hbyte
  | getled c =>
    obtain ⟨f, hread, rfl⟩ := State.getledBody_ok h
    exact State.getledBody_of_read (s := { s with tp := x, np := y }) hread

/-- The issue does the same whatever TP and NP are: no check reads them (R185). -/
theorem State.issue_withFlags (i : Instr) (x y : Bool) (s : State) :
    State.issue i (State.checksOf { s with tp := x, np := y } i) { s with tp := x, np := y } =
      { s.issue i (s.checksOf i) with tp := x, np := y } := by
  rw [show State.checksOf { s with tp := x, np := y } i = s.checksOf i by cases i <;> rfl]
  unfold State.issue
  split <;> rfl

/-- The step of an accessor's command does the same whatever TP and NP are. -/
theorem Accessor.exec_withFlags {a : Accessor} {s t : State} (x y : Bool) (h : exec a.command s = .next t) :
    exec a.command { s with tp := x, np := y } = .next { t with tp := x, np := y } := by
  obtain ⟨hfault, ⟨hown, rfl⟩ | ⟨hown, u, hrun, rfl⟩⟩ := Accessor.exec_cases h
  · rw [Accessor.exec_of_idle (s := { s with tp := x, np := y }) hfault hown, State.issue_withFlags]
  · exact Accessor.exec_of_busy (s := { s with tp := x, np := y }) hfault hown (Accessor.run_withFlags x y hrun)

/-! ### What each accessor leaves of FB and RESP -/

theorem exec_setled_leaves {s t : State} {c v : Nat} (h : exec (.setled c v) s = .next t) :
    t.resp = s.resp ∧ ∀ k, k ≠ fieldByte c → k ≠ fieldByte c + 1 → Memory.read t.fb k = Memory.read s.fb k := by
  obtain ⟨hfb, hresp⟩ | ⟨u, hrun, hfb, hresp⟩ := Accessor.exec_data (a := .setled c v) h
  · exact ⟨hresp, fun k _ _ => by rw [hfb]⟩
  · obtain ⟨-, rfl⟩ := State.fieldWrite_ok hrun
    exact ⟨hresp, fun k h0 h1 => by rw [hfb, Memory.read_fieldWritten_ne s.fb _ h0 h1]⟩

theorem exec_clear_leaves {s t : State} (h : exec .clear s = .next t) :
    t.resp = s.resp ∧ ∀ k, s.cfg.fbBytes ≤ k → Memory.read t.fb k = Memory.read s.fb k := by
  obtain ⟨hfb, hresp⟩ | ⟨u, hrun, hfb, hresp⟩ := Accessor.exec_data (a := .clear) h
  · exact ⟨hresp, fun k _ => by rw [hfb]⟩
  · refine ⟨by rw [hresp, State.clearBody_ok hrun], fun k hk => ?_⟩
    rw [hfb, State.clearBody_read hrun hk]

theorem exec_getled_fb {s t : State} {c : Nat} (h : exec (.getled c) s = .next t) : t.fb = s.fb := by
  obtain ⟨hfb, -⟩ | ⟨u, hrun, hfb, -⟩ := Accessor.exec_data (a := .getled c) h
  · exact hfb
  · obtain ⟨f, -, rfl⟩ := State.getledBody_ok hrun
    exact hfb

/-- Settles O14: the step of an accessor's command is its issue or its whole body; neither writes more than FB, RESP,
OWN and FAULT, and both commute with a change of TP and NP. -/
theorem accessorsHaveNoHardwareEffect : Obligations.AccessorsHaveNoHardwareEffect := by
  intro i s t hi h
  obtain ⟨a, rfl⟩ := exists_accessor_command hi
  obtain ⟨m, r, o, f, rfl⟩ := Accessor.exec_frame h
  exact ⟨rfl, rfl, rfl, rfl, fun l => by cases l <;> rfl, rfl, rfl, rfl, rfl, rfl, rfl, rfl, rfl, rfl,
    Accessor.exec_ends h, fun x y => Accessor.exec_withFlags x y h, fun c v hcmd => exec_setled_leaves (hcmd ▸ h),
    fun hcmd => exec_clear_leaves (hcmd ▸ h), fun c hcmd => exec_getled_fb (hcmd ▸ h)⟩

end Sys2Proof.Machine

/-! PROOFS. R123 to R126: a value is shifted most significant bit first. -/

namespace Sys2Proof.Machine

/-! ### The micro-operations of SHIFT -/

/-- The micro-operations of transmitted bit j are the triple of bit k-1-j of the value (R123, R124). -/
theorem shift_bit (x : Nat) {k j r : Nat} (hj : j < k) (hr : r < 3) :
    (shift x k)[3 * j + r]? = (bitTriple (.sinv (x.testBit (k - 1 - j))))[r]? := by
  have hindex : (List.range k).reverse[j]? = some (k - 1 - j) := by
    rw [List.getElem?_reverse (by simpa using hj), List.length_range, List.getElem?_range (by omega)]
  rw [shift, getElem?_flatMap_block _ _ 3 (fun _ => length_bitTriple _) j r hr, hindex, Option.bind_some]

/-- Every micro-operation of SHIFT is the write of one line (R120, R123). -/
theorem run_of_mem_shift {x k : Nat} {op : MicroOp} (h : op ∈ shift x k) :
    ∃ l b, ∀ s, op.run s = .ok (s.driveLine l b) := by
  obtain ⟨i, -, hop⟩ := List.mem_flatMap.mp h
  obtain rfl | rfl | rfl : op = .sinv (x.testBit i) ∨ op = .lset .sclk true ∨ op = .lset .sclk false := by
    simpa [bitTriple] using hop
  · exact ⟨.sin, x.testBit i, fun _ => rfl⟩
  · exact ⟨.sclk, true, fun _ => rfl⟩
  · exact ⟨.sclk, false, fun _ => rfl⟩

/-! ### DISPLAY's form of the write of SIN -/

/-- Reading buffer bit p of the frame drives SIN to it (R52, R120). -/
theorem State.driveSinFromFb_of_lt {p : Nat} {s : State} (hp : p < s.cfg.frameBits) :
    s.driveSinFromFb p = .ok (s.driveLine .sin (Memory.bit s.fb p)) := by
  have hbyte : p / 8 < s.cfg.fbBytes := by
    rw [Config.frameBits] at hp
    rw [Config.fbBytes]
    omega
  rw [State.driveSinFromFb, State.memRead_of_lt hbyte]
  rfl

/-- Settles O21: SHIFT is one triple a bit, from bit k-1 down, and each of its micro-operations writes one line. -/
theorem shiftSendsMostSignificantBitFirst : Obligations.ShiftSendsMostSignificantBitFirst := by
  refine ⟨fun x k => ⟨length_shift x k, fun j hj => ⟨?_, ?_, ?_⟩⟩, fun x k op s t hop hrun => ?_,
    fun s p hp => State.driveSinFromFb_of_lt hp,
    fun x => ⟨rfl, length_shift x 8, rfl, length_shift6 x⟩, by decide, by decide⟩
  · exact shift_bit x (r := 0) hj (by decide)
  · exact shift_bit x (r := 1) hj (by decide)
  · exact shift_bit x (r := 2) hj (by decide)
  · obtain ⟨l, b, hdrive⟩ := run_of_mem_shift hop
    cases (hdrive s).symm.trans hrun
    simp

end Sys2Proof.Machine

/-! PROOFS. R174: the interrupt is enabled once, and for ever. -/

namespace Sys2Proof.Machine

/-! ### The IESETs of the micro-programs (R129, R141, R170) -/

theorem ieset_not_mem_bitTriple {sin : MicroOp} {b : Bool} (hsin : sin ≠ .ieset b) : .ieset b ∉ bitTriple sin := by
  simpa [bitTriple] using hsin.symm

theorem ieset_not_mem_shift (x k : Nat) (b : Bool) : .ieset b ∉ shift x k := by
  intro h
  obtain ⟨i, -, hbit⟩ := List.mem_flatMap.mp h
  exact ieset_not_mem_bitTriple (by simp) hbit

theorem ieset_not_mem_displayProgram (n : Nat) (b : Bool) : .ieset b ∉ displayProgram n := by
  have hframe : ∀ p < 192 * n, .ieset b ∉ bitTriple (.sinfb p) := fun p _ => ieset_not_mem_bitTriple (by simp)
  simpa [displayProgram] using hframe

theorem ieset_not_mem_dcProgram (n v : Nat) (b : Bool) : .ieset b ∉ dcProgram n v := by
  have hstream : .ieset b ∉ shift6 v := ieset_not_mem_shift v 6 b
  simp [dcProgram, hstream]

/-- INIT's IESET enables the interrupt (R174); its load and its display have none. -/
theorem ieset_mem_initProgram {n : Nat} {b : Bool} (h : .ieset b ∈ initProgram n) : b = true := by
  simpa [initProgram, initPins, ieset_not_mem_dcProgram, ieset_not_mem_displayProgram] using h

/-- No command disables the interrupt: INIT alone has an IESET, and it sets IE. -/
theorem ieset_mem_programOf {n : Nat} {i : Instr} {b : Bool} (h : .ieset b ∈ programOf n i) : b = true := by
  cases i with
  | init => exact ieset_mem_initProgram h
  | display => exact absurd h (ieset_not_mem_displayProgram n b)
  | setglobaldc v => exact absurd h (ieset_not_mem_dcProgram n v b)
  | clear | setled | getled => simp [programOf, clearProgram, setledProgram, getledProgram] at h

/-! ### What a step does to IE -/

/-- What SINFB can do: drive some level on SIN (R120). -/
theorem State.driveSinFromFb_ok {p : Nat} {s t : State} (h : s.driveSinFromFb p = .ok t) :
    ∃ b, t = s.driveLine .sin b := by
  unfold State.driveSinFromFb at h
  split at h
  · exact ⟨_, (Except.ok.inj h).symm⟩
  · cases h

/-- Only an IESET writes IE. -/
theorem MicroOp.run_ie {op : MicroOp} {s t : State} (h : op.run s = .ok t) : t.ie = s.ie ∨ op = .ieset t.ie := by
  cases op with
  | waitTp0 | gset | lifeset => cases h; exact .inl rfl
  | lset l b => cases h; exact .inl (State.driveLine_ie l b s)
  | sinv b => cases h; exact .inl (State.driveLine_ie .sin b s)
  | fset f b => cases h; exact .inl (State.setFlag_ie f b s)
  | ieset b => cases h; exact .inr rfl
  | sinfb p =>
    obtain ⟨b, rfl⟩ := State.driveSinFromFb_ok h
    exact .inl (State.driveLine_ie .sin b s)
  | acc a =>
    obtain ⟨m, r, rfl⟩ := Accessor.run_ok h
    exact .inl rfl

@[simp] theorem State.issue_ie (cmd : Instr) (checks : List (Option FaultCode)) (s : State) :
    (s.issue cmd checks).ie = s.ie := by
  obtain ⟨o, f, hissue⟩ := State.issue_frame cmd checks s
  rw [hissue]

/-- What a command's step does to IE: nothing, or it sets it. -/
theorem exec_ie {i : Instr} {s t : State} (h : exec i s = .next t) : t.ie = s.ie ∨ t.ie = true := by
  rw [exec_eq] at h
  obtain ⟨-, ⟨-, rfl⟩ | ⟨upc, -, hmicro⟩⟩ := State.ownerCommand_cases h
  · exact .inl (State.issue_ie ..)
  · obtain ⟨op, hop, ⟨-, rfl⟩ | ⟨-, u, hrun, rfl⟩⟩ := State.microStep_cases hmicro
    · exact .inl rfl
    · refine (MicroOp.run_ie hrun).imp_right fun hset => ieset_mem_programOf (n := s.cfg.numDrivers) (i := i) ?_
      exact hset ▸ List.mem_of_getElem? hop

/-- What the owner's step does to IE: nothing, or it sets it. -/
theorem State.ownerStep_ie {s t : State} (h : s.ownerStep = .next t) : t.ie = s.ie ∨ t.ie = true := by
  obtain ⟨i, u, -, hexec⟩ | ⟨-, -, rfl⟩ | ⟨w, rest, i, -, -, -, hexec⟩ | ⟨w, rest, e, -, -, -, rfl⟩ :=
    State.ownerStep_cases h
  · exact exec_ie hexec
  · exact .inl rfl
  · exact exec_ie (s := { s with host := rest }) hexec
  · exact .inl rfl

/-- What one step does to IE: nothing, or the owner sets it. A firing keeps it (R187). -/
theorem stepWith_ie {fires : Bool} {s t : State} (h : stepWith fires s = .next t) :
    t.ie = s.ie ∨ t.ie = true := by
  obtain ⟨-, ⟨-, -, rfl⟩ | ⟨-, howner⟩⟩ := stepWith_cases h
  · exact .inl (by simp)
  · exact State.ownerStep_ie (s := s.tickOn) howner

/-! ### The enabling of the interrupt, and the firing after it -/

/-- R174: INIT's micro-step 288N + 12 sets IE, and the owner moves on to the display. -/
theorem exec_init_interrupt {s : State} (hfault : s.fault = none)
    (hown : s.own = .busy .init (288 * s.cfg.numDrivers + 12)) :
    exec .init s = .next { s with ie := true, own := .busy .init (288 * s.cfg.numDrivers + 13) } := by
  rw [exec_eq, State.ownerCommand_of_busy hfault hown, programOf,
    State.microStep_of_run (initProgram_interrupt s.cfg.numDrivers) rfl rfl, ownAfter, length_initProgram,
    if_pos (by omega)]
  rfl

/-- R186: in a block without a fault the interrupt may fire whenever it is enabled. -/
theorem stepWith_true_of_ie {s : State} (hfault : s.fault = none) (hie : s.ie = true) :
    stepWith true s = .next s.tickOn.isr := by
  simp [stepWith, hfault, hie]

/-- Settles O51: the micro-step named is INIT's IESET, after which a firing is enabled; no micro-program clears IE, and
a firing does not write it. -/
theorem interruptEnableIsForEver : Obligations.InterruptEnableIsForEver := by
  refine ⟨fun s hfault hown => ⟨_, exec_init_interrupt hfault hown, rfl, ?_⟩, fun s t fires h hie => ?_⟩
  · exact stepWith_true_of_ie hfault rfl
  · obtain hsame | hset := stepWith_ie h
    · rw [hsame, hie]
    · exact hset

end Sys2Proof.Machine

/-! PROOFS. R70 to R79: the decoder and the encoder undo each other, and which words spell no command. -/

namespace Sys2Proof

open Laws.EncodedFields (opcode reserved)

/-! ### The operand fields of an encoded command (R72) -/

theorem slice_encode_setled {c v : Nat} (hc : c < 65536) (hv : v < 4096) :
    slice (encode (.setled c v)) 27 12 = c ∧ slice (encode (.setled c v)) 11 0 = v := by
  rw [encode, encodeNat_setled hc hv, slice_ofNat (by omega), slice_ofNat (by omega)]
  omega

theorem slice_encode_getled {c : Nat} (hc : c < 65536) : slice (encode (.getled c)) 27 12 = c := by
  rw [encode, encodeNat_getled hc, slice_ofNat (by omega)]
  omega

theorem slice_encode_setglobaldc {v : Nat} (hv : v < 64) : slice (encode (.setglobaldc v)) 5 0 = v := by
  rw [encode, encodeNat_setglobaldc hv, slice_ofNat (by omega)]
  omega

/-- R75, R79: the decoder reads a well-formed command back from its word. -/
theorem decode_encode {i : Instr} (h : i.wf = true) : decode (encode i) = .ok i := by
  cases i with
  | init | clear | display => rfl
  | setled c v =>
    obtain ⟨hop, -⟩ := Laws.EncodedFields.setled c v h
    simp only [Instr.wf, Bool.and_eq_true, decide_eq_true_eq] at h
    obtain ⟨hchannel, hintensity⟩ := slice_encode_setled h.1 h.2
    simp only [decode, hop, opcode, hchannel, hintensity]
  | getled c =>
    obtain ⟨hop, hreserved⟩ := Laws.EncodedFields.getled c h
    simp only [Instr.wf, decide_eq_true_eq] at h
    simp only [reserved, List.mem_singleton, forall_eq] at hreserved
    simp only [decode, hop, opcode, hreserved, slice_encode_getled h, decodeReserved, if_true]
  | setglobaldc v =>
    obtain ⟨hop, hreserved⟩ := Laws.EncodedFields.setglobaldc v h
    simp only [Instr.wf, decide_eq_true_eq] at h
    simp only [reserved, List.mem_singleton, forall_eq] at hreserved
    simp only [decode, hop, opcode, hreserved, slice_encode_setglobaldc h, decodeReserved, if_true]

/-- R70: a word read from its own 32 bits is the word. -/
theorem decodeTableWord_toNat {w : Word} {i : Instr} (h : decode w = .ok i) : decodeTableWord 32 w.toNat = some i := by
  rw [decodeTableWord, Nat.mod_eq_of_lt w.isLt, BitVec.ofNat_toNat, BitVec.setWidth_eq, h]

/-- Settles O1: the fields of an encoded command are its opcode, zero where reserved, and its operands. -/
theorem decodeEncodeAgree : Obligations.DecodeEncodeAgree := by
  intro i h
  exact ⟨decode_encode h, decodeTableWord_toNat (decode_encode h)⟩

/-! ### The word of a decoded command -/

/-- R73: a decoded command with a reserved field had zero in it. -/
theorem decodeReserved_ok {r : Nat} {i j : Instr} (h : decodeReserved r i = .ok j) : r = 0 ∧ i = j := by
  unfold decodeReserved at h
  split at h
  · exact ⟨‹_›, Except.ok.inj h⟩
  · cases h

/-- What a word that decodes is, opcode by opcode (R72, R73). -/
theorem decode_ok_cases {w : Word} {i : Instr} (h : decode w = .ok i) :
    (slice w 31 28 = 1 ∧ slice w 27 0 = 0 ∧ i = .init) ∨
    (slice w 31 28 = 2 ∧ slice w 27 0 = 0 ∧ i = .clear) ∨
    (slice w 31 28 = 3 ∧ i = .setled (slice w 27 12) (slice w 11 0)) ∨
    (slice w 31 28 = 4 ∧ slice w 11 0 = 0 ∧ i = .getled (slice w 27 12)) ∨
    (slice w 31 28 = 5 ∧ slice w 27 0 = 0 ∧ i = .display) ∨
    (slice w 31 28 = 6 ∧ slice w 27 6 = 0 ∧ i = .setglobaldc (slice w 5 0)) := by
  unfold decode at h
  split at h
  · obtain ⟨hr, rfl⟩ := decodeReserved_ok h; exact .inl ⟨‹_›, hr, rfl⟩
  · obtain ⟨hr, rfl⟩ := decodeReserved_ok h; exact .inr (.inl ⟨‹_›, hr, rfl⟩)
  · cases h; exact .inr (.inr (.inl ⟨‹_›, rfl⟩))
  · obtain ⟨hr, rfl⟩ := decodeReserved_ok h; exact .inr (.inr (.inr (.inl ⟨‹_›, hr, rfl⟩)))
  · obtain ⟨hr, rfl⟩ := decodeReserved_ok h; exact .inr (.inr (.inr (.inr (.inl ⟨‹_›, hr, rfl⟩))))
  · obtain ⟨hr, rfl⟩ := decodeReserved_ok h; exact .inr (.inr (.inr (.inr (.inr ⟨‹_›, hr, rfl⟩))))
  · cases h

theorem slice_lt (w : Word) (hi lo : Nat) : slice w hi lo < 2 ^ (hi + 1 - lo) :=
  Nat.mod_lt _ (Nat.two_pow_pos _)

/-- R71: the operands of a decoded command lie within their fields. -/
theorem wf_of_decode {w : Word} {i : Instr} (h : decode w = .ok i) : i.wf = true := by
  obtain ⟨-, -, rfl⟩ | ⟨-, -, rfl⟩ | ⟨-, rfl⟩ | ⟨-, -, rfl⟩ | ⟨-, -, rfl⟩ | ⟨-, -, rfl⟩ := decode_ok_cases h
  · rfl
  · rfl
  · simp only [Instr.wf, Bool.and_eq_true, decide_eq_true_eq]
    exact ⟨slice_lt w 27 12, slice_lt w 11 0⟩
  · exact decide_eq_true (slice_lt w 27 12)
  · rfl
  · exact decide_eq_true (slice_lt w 5 0)

/-- R79: the number of a decoded command is its word, put together from the word's fields. -/
theorem encodeNat_of_decode {w : Word} {i : Instr} (h : decode w = .ok i) : encodeNat i = w.toNat := by
  have hw := w.isLt
  have hwf := wf_of_decode h
  obtain ⟨hop, hr, rfl⟩ | ⟨hop, hr, rfl⟩ | ⟨hop, rfl⟩ | ⟨hop, hr, rfl⟩ | ⟨hop, hr, rfl⟩ | ⟨hop, hr, rfl⟩ :=
    decode_ok_cases h
  · simp only [slice] at hop hr; simp only [encodeNat]; omega
  · simp only [slice] at hop hr; simp only [encodeNat]; omega
  · simp only [Instr.wf, Bool.and_eq_true, decide_eq_true_eq] at hwf
    rw [encodeNat_setled hwf.1 hwf.2]
    simp only [slice] at hop ⊢; omega
  · simp only [Instr.wf, decide_eq_true_eq] at hwf
    rw [encodeNat_getled hwf]
    simp only [slice] at hop hr ⊢; omega
  · simp only [slice] at hop hr; simp only [encodeNat]; omega
  · simp only [Instr.wf, decide_eq_true_eq] at hwf
    rw [encodeNat_setglobaldc hwf]
    simp only [slice] at hop hr ⊢; omega

theorem encode_of_decode {w : Word} {i : Instr} (h : decode w = .ok i) : encode i = w := by
  rw [encode, encodeNat_of_decode h, BitVec.ofNat_toNat, BitVec.setWidth_eq]

/-- Settles O2: the fields that decode to a command add up to its word. -/
theorem encodeDecodeAgree : Obligations.EncodeDecodeAgree :=
  fun _ _ h => ⟨wf_of_decode h, encode_of_decode h⟩

/-- Settles O4: the decoder run on the seven words. -/
theorem sampleWordsDecode : Obligations.SampleWordsDecode := by
  unfold Obligations.SampleWordsDecode
  decide

/-! ### The words that spell no command (R73, R74) -/

/-- R74: opcodes 0 and 7 to 15 are illegal. -/
theorem decode_illegal {w : Word} (h : slice w 31 28 = 0 ∨ 7 ≤ slice w 31 28) :
    decode w = .error .illegalOpcode := by
  unfold decode
  split <;> first | omega | rfl

/-- R73: INIT, CLEAR and DISPLAY have no operand. -/
theorem decode_reserved_body {w : Word} (hop : slice w 31 28 = 1 ∨ slice w 31 28 = 2 ∨ slice w 31 28 = 5)
    (hr : slice w 27 0 ≠ 0) : decode w = .error .reservedNonzero := by
  obtain hop | hop | hop := hop <;> simp only [decode, hop, decodeReserved, if_neg hr]

theorem decode_reserved_getled {w : Word} (hop : slice w 31 28 = 4) (hr : slice w 11 0 ≠ 0) :
    decode w = .error .reservedNonzero := by
  simp only [decode, hop, decodeReserved, if_neg hr]

theorem decode_reserved_setglobaldc {w : Word} (hop : slice w 31 28 = 6) (hr : slice w 27 6 ≠ 0) :
    decode w = .error .reservedNonzero := by
  simp only [decode, hop, decodeReserved, if_neg hr]

theorem decode_setled {w : Word} (hop : slice w 31 28 = 3) :
    decode w = .ok (.setled (slice w 27 12) (slice w 11 0)) := by
  simp only [decode, hop]

/-- R73: a dot-correction value of 64 or more sets a reserved bit. -/
theorem decode_setglobaldc_wide {v : Nat} (h64 : 64 ≤ v) (hv : v < 2 ^ 28) :
    decode (encode (.setglobaldc v)) = .error .reservedNonzero := by
  have hnat : encodeNat (.setglobaldc v) = 6 * 2 ^ 28 + v := or_shift_eq_add 6 v 28 hv
  have hword : encodeNat (.setglobaldc v) < 2 ^ 32 := by omega
  refine decode_reserved_setglobaldc ?_ ?_
  · rw [encode, slice_ofNat hword, hnat]; omega
  · rw [encode, slice_ofNat hword, hnat]; omega

end Sys2Proof

namespace Sys2Proof.Machine

/-- R180: the issue of a word that does not decode records its code, and the word is taken. -/
theorem State.ownerStep_of_error {s : State} {w : Word} {rest : List Word} {e : DecodeError} (hown : s.own = .idle)
    (hhost : s.host = w :: rest) (h : decode w = .error e) :
    s.ownerStep = .next { s with host := rest, fault := some ⟨decodeFaultCode e, w⟩ } := by
  simp only [State.ownerStep, hown, hhost, State.issueWord, h]
  rfl

/-- Settles O3: each clause is one arm of the decoder, and the issue step records the decoder's error. -/
theorem reservedFieldsAndIllegalOpcodesFault : Obligations.ReservedFieldsAndIllegalOpcodesFault :=
  ⟨fun _ => ⟨decode_illegal, decode_reserved_body, decode_reserved_getled, decode_reserved_setglobaldc,
      decode_setled⟩,
    fun _ => decode_setglobaldc_wide,
    fun _ _ _ _ hown hhost => ⟨State.ownerStep_of_error hown hhost, State.ownerStep_of_error hown hhost⟩⟩

/-! ### The assembler (R79) -/

/-- R79: the assembler accepts the commands a word can spell. -/
theorem asmCommand_eq (i : Instr) : asmCommand i = if i.wf = true then some (.command i) else none := rfl

theorem toNat_encode {i : Instr} (h : encodeNat i < 2 ^ 32) : (encode i).toNat = encodeNat i := by
  rw [encode, BitVec.toNat_ofNat, Nat.mod_eq_of_lt h]

/-- Settles O5: the assembler's test is `Instr.wf`, and a well-formed command's number fits the word. -/
theorem assemblerEncodesOrRefuses : Obligations.AssemblerEncodesOrRefuses := by
  refine ⟨fun c v => ?_, fun c => ?_, fun v => ?_, fun c v hc hv => ?_, fun c hc => ?_, fun v hv => ?_⟩
  · refine (asmCommand_eq (.setled c v)).trans ?_
    simp only [Instr.wf, Bool.and_eq_true, decide_eq_true_eq]
  · refine (asmCommand_eq (.getled c)).trans ?_
    simp only [Instr.wf, decide_eq_true_eq]
  · refine (asmCommand_eq (.setglobaldc v)).trans ?_
    simp only [Instr.wf, decide_eq_true_eq]
  · exact toNat_encode (by rw [encodeNat_setled hc hv]; omega)
  · exact toNat_encode (by rw [encodeNat_getled hc]; omega)
  · exact toNat_encode (by rw [encodeNat_setglobaldc hv]; omega)

end Sys2Proof.Machine

/-! PROOFS. What one step can do, said once: the micro-operations, the firing and the step of the machine, with the
properties that every write keeps. -/

namespace Sys2Proof.Machine

/-! ### A micro-operation (R120) -/

/-- The operation drives SIN to the bit b. -/
def MicroOp.DrivesSin (m : Memory) (b : Bool) (op : MicroOp) : Prop :=
  op = .sinv b ∨ ∃ p, op = .sinfb p ∧ Memory.bit m p = b

theorem MicroOp.DrivesSin.levelAfter {m : Memory} {b : Bool} {op : MicroOp} (h : op.DrivesSin m b) (l : Line)
    (v : Level) : op.levelAfter m l v = if l = .sin then Level.ofBit b else v := by
  obtain rfl | ⟨p, rfl, rfl⟩ := h <;> rfl

/-- The operation writes the level of b to the line l. -/
def MicroOp.Writes (m : Memory) (l : Line) (b : Bool) (op : MicroOp) : Prop :=
  op = .lset l b ∨ (l = .sin ∧ op.DrivesSin m b)

theorem MicroOp.Writes.levelAfter {m : Memory} {l : Line} {b : Bool} {op : MicroOp} (h : op.Writes m l b) (k : Line)
    (v : Level) : op.levelAfter m k v = if l = k then Level.ofBit b else v := by
  obtain rfl | ⟨rfl, hsin⟩ := h
  · rfl
  · rw [hsin.levelAfter]
    cases k <;> rfl

/-- What a micro-operation can do: write a line, nothing, write a flag, GSCLK_RUN, IE or LIFE, or run an accessor. -/
theorem MicroOp.run_cases {op : MicroOp} {s t : State} (h : op.run s = .ok t) :
    (∃ l b, op.Writes s.fb l b ∧ t = s.driveLine l b) ∨
      (op = .waitTp0 ∧ t = s) ∨ (∃ f b, op = .fset f b ∧ t = s.setFlag f b) ∨
      (∃ b, op = .gset b ∧ t = s.driveGsclk b) ∨ (∃ b, op = .ieset b ∧ t = s.setIe b) ∨
      (op = .lifeset ∧ t = s.setReady) ∨ ∃ a : Accessor, op = .acc a ∧ a.run s = .ok t := by
  cases op with
  | lset l b => cases h; exact .inl ⟨l, b, .inl rfl, rfl⟩
  | sinv b =>
    cases h
    exact .inl ⟨.sin, b, .inr ⟨rfl, .inl rfl⟩, rfl⟩
  | sinfb p =>
    simp only [MicroOp.run, State.driveSinFromFb] at h
    split at h
    · rename_i b hread
      cases h
      obtain ⟨-, rfl⟩ : p / 8 < s.cfg.fbBytes ∧ Memory.read s.fb (p / 8) = b := by
        unfold State.memRead at hread
        split at hread
        · exact ⟨‹_›, Except.ok.inj hread⟩
        · cases hread
      exact .inl ⟨.sin, Memory.bit s.fb p, .inr ⟨rfl, .inr ⟨p, rfl, rfl⟩⟩, rfl⟩
    · cases h
  | waitTp0 => cases h; exact .inr (.inl ⟨rfl, rfl⟩)
  | fset f b => cases h; exact .inr (.inr (.inl ⟨f, b, rfl, rfl⟩))
  | gset b => cases h; exact .inr (.inr (.inr (.inl ⟨b, rfl, rfl⟩)))
  | ieset b => cases h; exact .inr (.inr (.inr (.inr (.inl ⟨b, rfl, rfl⟩))))
  | lifeset => cases h; exact .inr (.inr (.inr (.inr (.inr (.inl ⟨rfl, rfl⟩)))))
  | acc a => exact .inr (.inr (.inr (.inr (.inr (.inr ⟨a, rfl, h⟩)))))

/-! ### The owner's position and the tick are no part of an operation's effect -/

theorem State.observe_withOwnTick (l : Line) (b : Bool) (s : State) (o : Own) (n : Nat) :
    { s with own := o, tick := n }.observe l b = { s.observe l b with own := o, tick := n } := by
  unfold State.observe
  split
  · dsimp only; split
    · unfold State.takeBit; dsimp only; split <;> rfl
    · rfl
  · dsimp only; split
    · unfold State.latch; dsimp only; split <;> rfl
    · rfl
  · rfl

theorem State.driveLine_withOwnTick (l : Line) (b : Bool) (s : State) (o : Own) (n : Nat) :
    { s with own := o, tick := n }.driveLine l b = { s.driveLine l b with own := o, tick := n } := by
  rw [State.driveLine, State.observe_withOwnTick]
  cases l <;> rfl

theorem Accessor.run_withOwnTick {a : Accessor} {s t : State} (o : Own) (n : Nat) (h : a.run s = .ok t) :
    a.run { s with own := o, tick := n } = .ok { t with own := o, tick := n } := by
  cases a with
  | clear =>
    rw [State.clearBody_ok h]
    exact State.clearBody_eq_zeroed { s with own := o, tick := n }
  | setled c v =>
    obtain ⟨hbyte, rfl⟩ := State.fieldWrite_ok h
    exact State.fieldWrite_of_byte (s := { s with own := o, tick := n }) _ hbyte
  | getled c =>
    obtain ⟨f, hread, rfl⟩ := State.getledBody_ok h
    exact State.getledBody_of_read (s := { s with own := o, tick := n }) hread

/-- A micro-operation does the same wherever the owner stands and whatever the tick is. -/
theorem MicroOp.run_withOwnTick {op : MicroOp} {s t : State} (o : Own) (n : Nat) (h : op.run s = .ok t) :
    op.run { s with own := o, tick := n } = .ok { t with own := o, tick := n } := by
  cases op with
  | waitTp0 | gset | ieset | lifeset => cases h; rfl
  | lset l b => cases h; exact congrArg Except.ok (State.driveLine_withOwnTick l b s o n)
  | sinv b => cases h; exact congrArg Except.ok (State.driveLine_withOwnTick .sin b s o n)
  | fset f b => cases h; cases f <;> rfl
  | acc a => exact Accessor.run_withOwnTick o n h
  | sinfb p =>
    simp only [MicroOp.run, State.driveSinFromFb] at h ⊢
    rw [show ({ s with own := o, tick := n } : State).memRead (p / 8) = s.memRead (p / 8) from rfl]
    split at h
    · cases h; exact congrArg Except.ok (State.driveLine_withOwnTick ..)
    · cases h

theorem MicroOp.holds_eq_true {op : MicroOp} {s : State} (h : op.holds s = true) : op = .waitTp0 ∧ s.tp = true := by
  cases op with
  | waitTp0 => exact ⟨rfl, h⟩
  | _ => cases h

theorem MicroOp.holds_eq_false {op : MicroOp} {s : State} (h : op = .waitTp0 → s.tp = false) : op.holds s = false := by
  cases op with
  | waitTp0 => exact h rfl
  | _ => rfl

/-! ### The step of a command, by the owner's position -/

/-- R192: an idle owner issues the command. -/
theorem exec_of_idle {i : Instr} {s : State} (hfault : s.fault = none) (hown : s.own = .idle) :
    exec i s = .next (s.issue i (s.checksOf i)) := by
  rw [exec_eq, State.ownerCommand_of_idle hfault hown]

/-- R120: a command in progress performs its micro-program's next operation. -/
theorem exec_of_run {i : Instr} {s v : State} {u : Nat} {op : MicroOp} (hfault : s.fault = none)
    (hown : s.own = .busy i u) (hop : (programOf s.cfg.numDrivers i)[u]? = some op)
    (hwait : op = .waitTp0 → s.tp = false) (hrun : op.run s = .ok v) :
    exec i s = .next { v with own := ownAfter i (programOf s.cfg.numDrivers i).length u } := by
  rw [exec_eq, State.ownerCommand_of_busy hfault hown,
    State.microStep_of_run hop (MicroOp.holds_eq_false hwait) hrun]

/-- R121: a command at a wait holds while TP = 1. -/
theorem exec_of_wait {i : Instr} {s : State} {u : Nat} (hfault : s.fault = none) (hown : s.own = .busy i u)
    (hop : (programOf s.cfg.numDrivers i)[u]? = some .waitTp0) (htp : s.tp = true) : exec i s = .next s := by
  rw [exec_eq, State.ownerCommand_of_busy hfault hown, State.microStep_of_holds hop htp]

/-! ### The issue of a word (R185) -/

theorem firstFault_checksOf_cases (i : Instr) (s : State) :
    (s.accepts i = true ∧ firstFault (s.checksOf i) = none) ∨
      ∃ code, s.accepts i = false ∧ firstFault (s.checksOf i) = some code := by
  cases h : firstFault (s.checksOf i) with
  | none => exact .inl ⟨State.firstFault_checksOf.mp h, rfl⟩
  | some code =>
    refine .inr ⟨code, ?_, rfl⟩
    cases ha : s.accepts i with
    | false => rfl
    | true => rw [State.firstFault_checksOf.mpr ha] at h; cases h

/-- What the issue can do: accept the command at micro-step 0, or record a fault with its word. -/
theorem State.issue_cases (i : Instr) (s : State) :
    (s.accepts i = true ∧ s.issue i (s.checksOf i) = { s with own := .busy i 0 }) ∨
      ∃ code, s.accepts i = false ∧ s.issue i (s.checksOf i) = s.raiseFault code (encode i) := by
  obtain ⟨ha, hfirst⟩ | ⟨code, ha, hfirst⟩ := firstFault_checksOf_cases i s
  · exact .inl ⟨ha, by simp only [State.issue, hfirst]⟩
  · exact .inr ⟨code, ha, by simp only [State.issue, hfirst]⟩

/-! ### One step of the machine -/

/-- The six things one step can be (R181, R185, R186, R192; log 4). -/
inductive Steps (fires : Bool) (s : State) : State → Prop
  /-- The interrupt fires. -/
  | firing : s.ie = true → fires = true → Steps fires s s.tickOn.isr
  /-- The owner is idle and the host has no word left. -/
  | noWord : (s.ie && fires) = false → s.own = .idle → s.host = [] → Steps fires s s.tickOn
  /-- The issue of the host's next word faults. -/
  | faulting (w : Word) (rest : List Word) (code : FaultCode) : (s.ie && fires) = false → s.own = .idle →
      s.host = w :: rest → Steps fires s ({ s with host := rest, tick := s.tick + 1 }.raiseFault code w)
  /-- The host's next word is accepted. -/
  | accepting (w : Word) (rest : List Word) (i : Instr) : (s.ie && fires) = false → s.own = .idle →
      s.host = w :: rest → decode w = .ok i → s.accepts i = true →
      Steps fires s { s with host := rest, own := .busy i 0, tick := s.tick + 1 }
  /-- The owner holds at a wait. -/
  | holding (i : Instr) (u : Nat) : (s.ie && fires) = false → s.own = .busy i u →
      (programOf s.cfg.numDrivers i)[u]? = some .waitTp0 → s.tp = true → Steps fires s s.tickOn
  /-- The command in progress performs its next micro-operation. -/
  | performing (i : Instr) (u : Nat) (op : MicroOp) (v : State) : (s.ie && fires) = false → s.own = .busy i u →
      (programOf s.cfg.numDrivers i)[u]? = some op → (op = .waitTp0 → s.tp = false) → op.run s = .ok v →
      Steps fires s { v with own := ownAfter i (programOf s.cfg.numDrivers i).length u, tick := s.tick + 1 }

/-- A micro-operation's result on the state after the tick, from its result before it. -/
theorem MicroOp.run_of_tickOn {op : MicroOp} {s v : State} (h : op.run s.tickOn = .ok v) (o : Own) :
    ∃ x, op.run s = .ok x ∧ ({ v with own := o } : State) = { x with own := o, tick := s.tick + 1 } := by
  refine ⟨_, MicroOp.run_withOwnTick (s := s.tickOn) s.own s.tick h, ?_⟩
  obtain ⟨-, -, -, -, htick⟩ := MicroOp.run_ok h
  rw [State.tickOn_tick] at htick
  rw [← htick]

/-- Every step is one of the six. -/
theorem steps_of_stepWith {fires : Bool} {s t : State} (h : stepWith fires s = .next t) :
    s.fault = none ∧ Steps fires s t := by
  obtain ⟨hfault, ⟨hie, hfires, rfl⟩ | ⟨hno, howner⟩⟩ := stepWith_cases h
  · exact ⟨hfault, .firing hie hfires⟩
  refine ⟨hfault, ?_⟩
  obtain ⟨i, u, hown, hexec⟩ | ⟨hown, hhost, rfl⟩ | ⟨w, rest, i, hown, hhost, hdec, hexec⟩ |
    ⟨w, rest, e, hown, hhost, hdec, rfl⟩ := State.ownerStep_cases howner
  · rw [exec_eq] at hexec
    obtain ⟨-, ⟨hidle, -⟩ | ⟨upc, hbusy, hmicro⟩⟩ := State.ownerCommand_cases hexec
    · rw [hown] at hidle; cases hidle
    · obtain ⟨op, hop, ⟨hhold, rfl⟩ | ⟨hhold, v, hrun, rfl⟩⟩ := State.microStep_cases hmicro
      · obtain ⟨rfl, htp⟩ := MicroOp.holds_eq_true hhold
        exact .holding i upc hno hbusy hop htp
      · obtain ⟨x, hx, hv⟩ := MicroOp.run_of_tickOn hrun (ownAfter i (programOf s.cfg.numDrivers i).length upc)
        have hwait : op = .waitTp0 → s.tp = false := by rintro rfl; exact hhold
        exact hv ▸ .performing i upc op x hno hbusy hop hwait hx
  · exact .noWord hno hown hhost
  · rw [exec_of_idle (s := { s.tickOn with host := rest }) hfault hown] at hexec
    cases hexec
    obtain ⟨hacc, hissue⟩ | ⟨code, -, hissue⟩ := State.issue_cases i { s.tickOn with host := rest }
    · rw [hissue]
      exact .accepting w rest i hno hown hhost hdec (by cases i <;> exact hacc)
    · rw [hissue, encode_of_decode hdec]
      exact .faulting w rest code hno hown hhost
  · exact .faulting w rest (decodeFaultCode e) hno hown hhost

/-! ### Properties every write keeps -/

/-- A property of states that each write of the block keeps. -/
structure KeptByWrites (P : State → Prop) : Prop where
  line : ∀ s l b, P s → P (s.driveLine l b)
  gsclk : ∀ s b, P s → P (s.driveGsclk b)
  flag : ∀ s f b, P s → P (s.setFlag f b)
  ie : ∀ s b, P s → P (s.setIe b)
  ready : ∀ s, P s → P s.setReady
  accessor : ∀ (a : Accessor) s t, P s → a.run s = .ok t → P t
  bookkeeping : ∀ (s : State) o f h n, P s → P { s with own := o, fault := f, host := h, tick := n }

section
variable {P : State → Prop} (hP : KeptByWrites P)
include hP

theorem KeptByWrites.isr {s : State} (h : P s) : P s.isr := by
  have hpulse : ∀ s l, P s → P (s.pulse l) := fun s l h => hP.line _ l false (hP.line s l true h)
  have hextra : ∀ s, P s → P s.isrExtraPulse := fun s h => by
    unfold State.isrExtraPulse
    split
    · exact hP.flag _ .np false (hpulse s .sclk h)
    · exact h
  have hlatch : ∀ s, P s → P s.isrLatch := fun s h => by
    unfold State.isrLatch
    split
    · exact hextra _ (hP.flag _ .tp false (hpulse s .xlat h))
    · exact h
  exact hP.gsclk _ true (hP.line _ .blank false (hlatch _ (hP.gsclk _ false (hP.line s .blank true h))))

theorem KeptByWrites.run {op : MicroOp} {s t : State} (h : P s) (hrun : op.run s = .ok t) : P t := by
  obtain ⟨l, b, -, rfl⟩ | ⟨-, rfl⟩ | ⟨f, b, -, rfl⟩ | ⟨b, -, rfl⟩ | ⟨b, -, rfl⟩ | ⟨-, rfl⟩ | ⟨a, -, ha⟩ :=
    MicroOp.run_cases hrun
  · exact hP.line s l b h
  · exact h
  · exact hP.flag s f b h
  · exact hP.gsclk s b h
  · exact hP.ie s b h
  · exact hP.ready s h
  · exact hP.accessor a s t h ha

/-- A property every write keeps, every step keeps. -/
theorem KeptByWrites.stepWith {fires : Bool} {s t : State} (h : P s) (hstep : stepWith fires s = .next t) : P t := by
  have htick : P s.tickOn := hP.bookkeeping s s.own s.fault s.host (s.tick + 1) h
  obtain ⟨-, hs⟩ := steps_of_stepWith hstep
  cases hs with
  | firing => exact hP.isr htick
  | noWord | holding => exact htick
  | faulting => exact hP.bookkeeping s _ _ _ _ h
  | accepting => exact hP.bookkeeping s _ s.fault _ _ h
  | performing i u op v _ _ _ _ hrun => exact hP.bookkeeping v _ v.fault v.host _ (hP.run h hrun)

end

/-! ### R21: the frame buffer stays canonical and within its bytes -/

theorem fieldWritten_wf {m : Memory} (c : Nat) (v : Field) (h : Memory.wf m = true) :
    Memory.wf (fieldWritten m c v) = true :=
  Memory.wf_write _ _ (Memory.wf_write _ _ h)

theorem fieldWritten_below {n c : Nat} {m : Memory} (v : Field) (h : Memory.below n m = true)
    (hc : fieldByte c + 1 < n) : Memory.below n (fieldWritten m c v) = true :=
  Memory.below_write _ (Memory.below_write _ h (Nat.lt_of_succ_lt hc)) hc

theorem Accessor.run_fbOk {a : Accessor} {s t : State} (h : s.FbOk) (hrun : a.run s = .ok t) : t.FbOk := by
  cases a with
  | clear =>
    cases (State.clearBody_eq h).symm.trans hrun
    exact ⟨rfl, rfl⟩
  | setled c v =>
    obtain ⟨hbyte, rfl⟩ := State.fieldWrite_ok hrun
    exact ⟨fieldWritten_wf c _ h.canonical, fieldWritten_below _ h.within hbyte⟩
  | getled c =>
    obtain ⟨f, -, rfl⟩ := State.getledBody_ok hrun
    exact ⟨h.canonical, h.within⟩

theorem keptByWrites_fbOk : KeptByWrites State.FbOk where
  line s l b h := ⟨by simpa using h.canonical, by simpa using h.within⟩
  gsclk _ _ h := ⟨h.canonical, h.within⟩
  flag s f b h := ⟨by simpa using h.canonical, by simpa using h.within⟩
  ie _ _ h := ⟨h.canonical, h.within⟩
  ready _ h := ⟨h.canonical, h.within⟩
  accessor _ _ _ h hrun := Accessor.run_fbOk h hrun
  bookkeeping _ _ _ _ _ h := ⟨h.canonical, h.within⟩

/-- Settles O41: only an accessor's body writes FB, in canonical form and within the buffer. -/
theorem everyStepKeepsTheBufferCanonical : Obligations.EveryStepKeepsTheBufferCanonical :=
  fun _ _ _ h hstep => keptByWrites_fbOk.stepWith h hstep

/-! ### R200: the lines and the chain follow the trace -/

/-- Two states an observer of the lines does not tell apart: the same lines and the same chain. -/
structure State.SameChain (s r : State) : Prop where
  cfg : s.cfg = r.cfg
  line : ∀ l, s.line l = r.line l
  gsclk : s.gsclkRun = r.gsclkRun
  sr : s.sr = r.sr
  liveGs : s.liveGs = r.liveGs
  liveDc : s.liveDc = r.liveDc
  draws : s.draws = r.draws

theorem State.SameChain.takeBit {s r : State} (h : s.SameChain r) : s.takeBit.SameChain r.takeBit := by
  have hsin : s.sin = r.sin := h.line .sin
  have hline : ∀ x : State, ∀ k, x.takeBit.line k = x.line k := fun x k => by cases k <;> simp [State.line]
  refine ⟨by simpa using h.cfg, fun k => ?_, by simpa using h.gsclk, ?_, by simpa using h.liveGs,
    by simpa using h.liveDc, ?_⟩
  · rw [hline, hline, h.line]
  · unfold State.takeBit
    rw [← hsin]
    cases s.sin <;> simp [h.sr, h.draws]
  · unfold State.takeBit
    rw [← hsin]
    cases s.sin <;> simp [h.draws]

theorem State.SameChain.latch {s r : State} (h : s.SameChain r) : s.latch.SameChain r.latch := by
  have hvprg : s.vprg = r.vprg := h.line .vprg
  have hlatched : ∀ n, s.latched n = r.latched n := fun n => by simp only [State.latched, h.sr, h.draws]
  have hdraws : ∀ n, s.drawsAfterLatch n = r.drawsAfterLatch n := fun n => by
    simp only [State.drawsAfterLatch, h.sr, h.draws]
  have hline : ∀ x : State, ∀ k, x.latch.line k = x.line k := fun x k => by cases k <;> simp [State.line]
  refine ⟨by simpa using h.cfg, fun k => ?_, by simpa using h.gsclk, by simpa using h.sr, ?_, ?_, ?_⟩
  · rw [hline, hline, h.line]
  · unfold State.latch
    rw [← hvprg]
    cases s.vprg <;> simp [hlatched, h.cfg, h.liveGs]
  · unfold State.latch
    rw [← hvprg]
    cases s.vprg <;> simp [hlatched, h.cfg, h.liveDc]
  · unfold State.latch
    rw [← hvprg]
    cases s.vprg <;> simp [hdraws, h.cfg, h.draws]

theorem State.SameChain.observe {s r : State} (l : Line) (b : Bool) (h : s.SameChain r) :
    (s.observe l b).SameChain (r.observe l b) := by
  have hsclk : s.sclk = r.sclk := h.line .sclk
  have hxlat : s.xlat = r.xlat := h.line .xlat
  unfold State.observe
  split
  · rw [hsclk]
    split
    · exact h.takeBit
    · exact h
  · rw [hxlat]
    split
    · exact h.latch
    · exact h
  · exact h

/-- A line write is seen alike in both. -/
theorem State.SameChain.driveLine {s r : State} (l : Line) (b : Bool) (h : s.SameChain r) :
    (s.driveLine l b).SameChain (r.driveLine l b) := by
  have ho := h.observe l b
  refine ⟨by simpa using h.cfg, fun k => ?_, by simpa using h.gsclk, by simpa using ho.sr, by simpa using ho.liveGs,
    by simpa using ho.liveDc, by simpa using ho.draws⟩
  rw [State.driveLine_line, State.driveLine_line, h.line]

theorem State.SameChain.driveGsclk {s r : State} (b : Bool) (h : s.SameChain r) :
    (s.driveGsclk b).SameChain (r.driveGsclk b) :=
  ⟨h.cfg, fun k => by simpa using h.line k, rfl, h.sr, h.liveGs, h.liveDc, h.draws⟩

/-- The replay is of the configuration it is given. -/
theorem replay_cfg (c : Config) (trace : List Event) : (replay c trace).cfg = c := by
  induction trace using List.reverseRecOn with
  | nil => rfl
  | append_singleton es e ih =>
    rw [replay, List.foldl_append]
    cases e with
    | set l b => exact (State.driveLine_cfg l b _).trans ih
    | gsclk b => exact ih

theorem replay_append (c : Config) (es : List Event) (e : Event) :
    replay c (es ++ [e]) = (replay c es).replayEvent e := by
  simp [replay]

theorem State.traceOk_iff {s : State} : s.TraceOk ↔ s.SameChain (replay s.cfg s.trace) :=
  ⟨fun h => ⟨(replay_cfg _ _).symm, h.lines, h.gsclk, h.sr, h.liveGs, h.liveDc, h.draws⟩,
    fun h => ⟨h.line, h.gsclk, h.sr, h.liveGs, h.liveDc, h.draws⟩⟩

/-- A write of flags, memory or bookkeeping alone leaves the trace's account right. -/
theorem State.TraceOk.of_sameChain {s t : State} (h : s.TraceOk) (hchain : t.SameChain s)
    (htrace : t.trace = s.trace) : t.TraceOk := by
  have h' := State.traceOk_iff.mp h
  rw [State.traceOk_iff, hchain.cfg, htrace]
  exact ⟨hchain.cfg.trans h'.cfg, fun l => (hchain.line l).trans (h'.line l), hchain.gsclk.trans h'.gsclk,
    hchain.sr.trans h'.sr, hchain.liveGs.trans h'.liveGs, hchain.liveDc.trans h'.liveDc,
    hchain.draws.trans h'.draws⟩

theorem keptByWrites_traceOk : KeptByWrites State.TraceOk where
  line s l b h := by
    rw [State.traceOk_iff, State.driveLine_cfg, State.driveLine_trace, replay_append]
    exact (State.traceOk_iff.mp h).driveLine l b
  gsclk s b h := by
    rw [State.traceOk_iff, State.driveGsclk_cfg, State.driveGsclk_trace, replay_append]
    exact (State.traceOk_iff.mp h).driveGsclk b
  flag s f b h := by
    cases f <;> exact h.of_sameChain ⟨rfl, fun l => by cases l <;> rfl, rfl, rfl, rfl, rfl, rfl⟩ rfl
  ie s b h := h.of_sameChain ⟨rfl, fun l => by cases l <;> rfl, rfl, rfl, rfl, rfl, rfl⟩ rfl
  ready s h := h.of_sameChain ⟨rfl, fun l => by cases l <;> rfl, rfl, rfl, rfl, rfl, rfl⟩ rfl
  accessor a s t h hrun := by
    obtain ⟨m, r, rfl⟩ := Accessor.run_ok hrun
    exact h.of_sameChain ⟨rfl, fun l => by cases l <;> rfl, rfl, rfl, rfl, rfl, rfl⟩ rfl
  bookkeeping s o f w n h := h.of_sameChain ⟨rfl, fun l => by cases l <;> rfl, rfl, rfl, rfl, rfl, rfl⟩ rfl

/-- Settles O56: every write of a line or of GSCLK_RUN appends the event the observer replays, and no other write
touches a line or the chain. -/
theorem linesAndChainFollowTheTrace : Obligations.LinesAndChainFollowTheTrace := by
  refine ⟨fun c program => ?_, fun s t fires h hstep => keptByWrites_traceOk.stepWith h hstep⟩
  exact State.traceOk_iff.mpr ⟨rfl, fun l => by cases l <;> rfl, rfl, rfl, rfl, rfl, rfl⟩

/-! ### What no step undoes -/

/-- What holds of a state after s: driven lines stay driven, LIFE stays READY, RESP, TRACE and SR extend. -/
structure State.NotUndone (s t : State) : Prop where
  line : ∀ l, s.line l ≠ .undriven → t.line l ≠ .undriven
  life : s.life = .ready → t.life = .ready
  resp : s.resp <+: t.resp
  trace : s.trace <+: t.trace
  sr : s.sr <+: t.sr

theorem Level.ofBit_ne_undriven (b : Bool) : Level.ofBit b ≠ .undriven := by cases b <;> simp [Level.ofBit]

/-- The chain's reaction to a line write only appends to SR (R200). -/
theorem State.sr_prefix_observe (l : Line) (b : Bool) (s : State) : s.sr <+: (s.observe l b).sr := by
  unfold State.observe
  split
  · split
    · unfold State.takeBit; split <;> exact List.prefix_append _ _
    · exact List.prefix_rfl
  · split
    · simp
    · exact List.prefix_rfl
  · exact List.prefix_rfl

theorem keptByWrites_notUndone (s : State) : KeptByWrites (State.NotUndone s) where
  line t l b h := by
    refine ⟨fun k hk => ?_, fun hlife => by simpa using h.life hlife, by simpa using h.resp, ?_, ?_⟩
    · rw [State.driveLine_line]
      split
      · exact Level.ofBit_ne_undriven b
      · exact h.line k hk
    · rw [State.driveLine_trace]; exact h.trace.trans (List.prefix_append _ _)
    · rw [State.driveLine_sr]; exact h.sr.trans (State.sr_prefix_observe l b t)
  gsclk t b h := by
    refine ⟨fun k hk => by simpa using h.line k hk, h.life, h.resp, ?_, h.sr⟩
    rw [State.driveGsclk_trace]; exact h.trace.trans (List.prefix_append _ _)
  flag t f b h := by
    cases f <;> exact ⟨fun k hk => by cases k <;> exact h.line _ hk, h.life, h.resp, h.trace, h.sr⟩
  ie t b h := ⟨fun k hk => by cases k <;> exact h.line _ hk, h.life, h.resp, h.trace, h.sr⟩
  ready t h := ⟨fun k hk => by cases k <;> exact h.line _ hk, fun _ => rfl, h.resp, h.trace, h.sr⟩
  accessor a t x h hrun := by
    have hresp : t.resp <+: x.resp := by
      cases a with
      | clear => rw [State.clearBody_ok hrun]
      | setled c v => obtain ⟨-, rfl⟩ := State.fieldWrite_ok hrun; exact List.prefix_rfl
      | getled c => obtain ⟨f, -, rfl⟩ := State.getledBody_ok hrun; exact List.prefix_append _ _
    obtain ⟨m, r, rfl⟩ := Accessor.run_ok hrun
    exact ⟨fun k hk => by cases k <;> exact h.line _ hk, h.life, h.resp.trans hresp, h.trace, h.sr⟩
  bookkeeping t o f w n h := ⟨fun k hk => by cases k <;> exact h.line _ hk, h.life, h.resp, h.trace, h.sr⟩

/-- Settles O52: every write leaves its line driven and only appends. -/
theorem nothingIsUndone : Obligations.NothingIsUndone := by
  intro s t fires hstep
  have hself : s.NotUndone s := ⟨fun _ h => h, fun h => h, List.prefix_rfl, List.prefix_rfl, List.prefix_rfl⟩
  obtain ⟨hline, hlife, hresp, htrace, hsr⟩ := (keptByWrites_notUndone s).stepWith hself hstep
  exact ⟨hline, hlife, hresp, htrace, hsr⟩

/-! ### The parameters are fixed at construction (R8, R9) -/

theorem keptByWrites_cfg (c : Config) : KeptByWrites fun s => s.cfg = c where
  line s l b h := (State.driveLine_cfg l b s).trans h
  gsclk _ _ h := h
  flag s f b h := (State.setFlag_cfg f b s).trans h
  ie _ _ h := h
  ready _ h := h
  accessor a s t h hrun := by obtain ⟨m, r, rfl⟩ := Accessor.run_ok hrun; exact h
  bookkeeping _ _ _ _ _ h := h

theorem stepWith_cfg {fires : Bool} {s t : State} (h : stepWith fires s = .next t) : t.cfg = s.cfg :=
  (keptByWrites_cfg s.cfg).stepWith rfl h

/-- R8, R9: the ranges of N and R. -/
theorem Config.legal_iff (n r : Nat) :
    (Config.mk n r).legal = true ↔ (1 ≤ n ∧ n ≤ 4096) ∧ (1 ≤ r ∧ r ≤ 12) := by
  simp only [Config.legal, Bool.and_eq_true, decide_eq_true_eq]
  constructor
  · rintro ⟨⟨⟨h1, h2⟩, h3⟩, h4⟩; exact ⟨⟨h1, h2⟩, h3, h4⟩
  · rintro ⟨⟨h1, h2⟩, h3, h4⟩; exact ⟨⟨⟨h1, h2⟩, h3⟩, h4⟩

/-- Settles O38: create tests exactly the ranges, and no write of the block reaches the configuration. -/
theorem createFixesTheParameters : Obligations.CreateFixesTheParameters := by
  refine ⟨fun n r h => ⟨State.initial ⟨n, r⟩, ?_, rfl⟩, fun n r h => ?_, fun n => rfl, fun s t fires => stepWith_cfg⟩
  · exact if_pos ((Config.legal_iff n r).mpr h)
  · exact if_neg (mt (Config.legal_iff n r).mp h)

end Sys2Proof.Machine

/-! PROOFS. The micro-programs position by position: which operation stands where, the level each line is left at, and
the bits sent so far. -/

namespace Sys2Proof.Machine

/-! ### Which operation stands where (R129, R141, R170) -/

/-- A position in a list of triples is one of three places in one of them. -/
theorem exists_triple {k n : Nat} (h : k < 3 * n) : ∃ p, p < n ∧ (k = 3 * p ∨ k = 3 * p + 1 ∨ k = 3 * p + 2) :=
  ⟨k / 3, by omega, by omega⟩

/-- R129: the micro-operations of DISPLAY and where they stand. -/
theorem displayProgram_cases {n u : Nat} {op : MicroOp} (h : (displayProgram n)[u]? = some op) :
    (u = 0 ∧ op = .waitTp0) ∨ (u = 1 ∧ op = .lset .vprg false) ∨
      (∃ p, p < 192 * n ∧ ((u = 2 + 3 * p ∧ op = .sinfb p) ∨ (u = 3 + 3 * p ∧ op = .lset .sclk true) ∨
        (u = 4 + 3 * p ∧ op = .lset .sclk false))) ∨
      (u = 576 * n + 2 ∧ op = .fset .tp true) := by
  obtain ⟨hu, -⟩ := List.getElem?_eq_some_iff.mp h
  rw [length_displayProgram] at hu
  match u with
  | 0 => cases h; exact .inl ⟨rfl, rfl⟩
  | 1 => cases h; exact .inr (.inl ⟨rfl, rfl⟩)
  | k + 2 =>
    by_cases hlast : k = 576 * n
    · subst k
      rw [displayProgram_last] at h
      cases h
      exact .inr (.inr (.inr ⟨rfl, rfl⟩))
    · obtain ⟨p, hp, rfl | rfl | rfl⟩ := exists_triple (show k < 3 * (192 * n) by omega)
      · rw [Nat.add_comm _ 2, ← Nat.add_zero (3 * p), displayProgram_bit n p 0 hp (by omega)] at h
        cases h; exact .inr (.inr (.inl ⟨p, hp, .inl ⟨by omega, rfl⟩⟩))
      · rw [Nat.add_comm _ 2, displayProgram_bit n p 1 hp (by omega)] at h
        cases h; exact .inr (.inr (.inl ⟨p, hp, .inr (.inl ⟨by omega, rfl⟩)⟩))
      · rw [Nat.add_comm _ 2, displayProgram_bit n p 2 hp (by omega)] at h
        cases h; exact .inr (.inr (.inl ⟨p, hp, .inr (.inr ⟨by omega, rfl⟩)⟩))

/-- R141: the micro-operations of SETGLOBALDC and where they stand. -/
theorem dcProgram_cases {n v u : Nat} {op : MicroOp} (h : (dcProgram n v)[u]? = some op) :
    (u = 0 ∧ op = .waitTp0) ∨ (u = 1 ∧ op = .lset .vprg true) ∨
      (∃ q, q < 96 * n ∧ ((u = 2 + 3 * q ∧ op = .sinv (v.testBit (5 - q % 6))) ∨
        (u = 3 + 3 * q ∧ op = .lset .sclk true) ∨ (u = 4 + 3 * q ∧ op = .lset .sclk false))) ∨
      (u = 288 * n + 2 ∧ op = .lset .xlat true) ∨ (u = 288 * n + 3 ∧ op = .lset .xlat false) ∨
      (u = 288 * n + 4 ∧ op = .lset .vprg false) ∨ (u = 288 * n + 5 ∧ op = .fset .np true) := by
  obtain ⟨hu, -⟩ := List.getElem?_eq_some_iff.mp h
  rw [length_dcProgram] at hu
  match u with
  | 0 => cases h; exact .inl ⟨rfl, rfl⟩
  | 1 => cases h; exact .inr (.inl ⟨rfl, rfl⟩)
  | k + 2 =>
    rcases Nat.lt_or_ge k (288 * n) with hk | hk
    · obtain ⟨q, hq, rfl | rfl | rfl⟩ := exists_triple (show k < 3 * (96 * n) by omega)
      · rw [Nat.add_comm _ 2, ← Nat.add_zero (3 * q), dcProgram_bit n v q 0 hq (by omega)] at h
        cases h; exact .inr (.inr (.inl ⟨q, hq, .inl ⟨by omega, rfl⟩⟩))
      · rw [Nat.add_comm _ 2, dcProgram_bit n v q 1 hq (by omega)] at h
        cases h; exact .inr (.inr (.inl ⟨q, hq, .inr (.inl ⟨by omega, rfl⟩)⟩))
      · rw [Nat.add_comm _ 2, dcProgram_bit n v q 2 hq (by omega)] at h
        cases h; exact .inr (.inr (.inl ⟨q, hq, .inr (.inr ⟨by omega, rfl⟩)⟩))
    · obtain ⟨r, rfl⟩ := Nat.exists_eq_add_of_le hk
      rw [show 288 * n + r + 2 = 288 * n + 2 + r by omega, dcProgram_tail] at h
      match r with
      | 0 => cases h; exact .inr (.inr (.inr (.inl ⟨rfl, rfl⟩)))
      | 1 => cases h; exact .inr (.inr (.inr (.inr (.inl ⟨rfl, rfl⟩))))
      | 2 => cases h; exact .inr (.inr (.inr (.inr (.inr (.inl ⟨rfl, rfl⟩)))))
      | 3 => cases h; exact .inr (.inr (.inr (.inr (.inr (.inr ⟨rfl, rfl⟩)))))
      | r + 4 => omega

/-- R170: the parts of INIT: its pins, the dot-correction load, the timers, the interrupt, the display, LIFE. -/
theorem initProgram_cases {n u : Nat} {op : MicroOp} (h : (initProgram n)[u]? = some op) :
    (u < 5 ∧ initPins[u]? = some op) ∨ (∃ k, u = 5 + k ∧ k < 288 * n + 6 ∧ (dcProgram n 63)[k]? = some op) ∨
      (u = 288 * n + 11 ∧ op = .gset true) ∨ (u = 288 * n + 12 ∧ op = .ieset true) ∨
      (∃ k, u = 288 * n + 13 + k ∧ k < 576 * n + 3 ∧ (displayProgram n)[k]? = some op) ∨
      (u = 864 * n + 16 ∧ op = .lifeset) := by
  obtain ⟨hu, -⟩ := List.getElem?_eq_some_iff.mp h
  rw [length_initProgram] at hu
  rcases Nat.lt_or_ge u 5 with hpins | hpins
  · exact .inl ⟨hpins, initProgram_pins n u hpins ▸ h⟩
  obtain ⟨k, rfl⟩ := Nat.exists_eq_add_of_le hpins
  rcases Nat.lt_or_ge k (288 * n + 6) with hdc | hdc
  · exact .inr (.inl ⟨k, rfl, hdc, initProgram_dc n k hdc ▸ h⟩)
  obtain ⟨r, rfl⟩ := Nat.exists_eq_add_of_le hdc
  match r with
  | 0 =>
    rw [show 5 + (288 * n + 6 + 0) = 288 * n + 11 by omega, initProgram_timers] at h
    cases h; exact .inr (.inr (.inl ⟨by omega, rfl⟩))
  | 1 =>
    rw [show 5 + (288 * n + 6 + 1) = 288 * n + 12 by omega, initProgram_interrupt] at h
    cases h; exact .inr (.inr (.inr (.inl ⟨by omega, rfl⟩)))
  | r + 2 =>
    rw [show 5 + (288 * n + 6 + (r + 2)) = 288 * n + 13 + r by omega] at h ⊢
    rcases Nat.lt_or_ge r (576 * n + 3) with hdisp | hdisp
    · exact .inr (.inr (.inr (.inr (.inl ⟨r, rfl, hdisp, initProgram_display n r hdisp ▸ h⟩))))
    · rw [show 288 * n + 13 + r = 864 * n + 16 by omega, initProgram_last] at h
      cases h; exact .inr (.inr (.inr (.inr (.inr ⟨by omega, rfl⟩))))

/-- The micro-program of an accessor's command is its body (R120). -/
theorem accessorProgram_cases {n u : Nat} {op : MicroOp} {a : Accessor}
    (h : (programOf n a.command)[u]? = some op) : u = 0 ∧ op = .acc a := by
  rw [programOf_command] at h
  cases u with
  | zero => cases h; exact ⟨rfl, rfl⟩
  | succ u => cases h

/-! ### Levels and bits of lists of operations -/

theorem levelAfter_append (m : Memory) (l : Line) (v : Level) (a b : List MicroOp) :
    levelAfter m l v (a ++ b) = levelAfter m l (levelAfter m l v a) b :=
  List.foldl_append

/-- The bit an operation sends, SIN's level given (R124). -/
def MicroOp.sent (v : Level) : MicroOp → List Bool
  | .lset .sclk true => [decide (v = .high)]
  | _ => []

theorem sentBits_cons (m : Memory) (v : Level) (op : MicroOp) (ops : List MicroOp) :
    sentBits m v (op :: ops) = op.sent v ++ sentBits m (op.levelAfter m .sin v) ops := by
  cases op with
  | lset l b => cases l <;> cases b <;> rfl
  | _ => rfl

theorem sentBits_append (m : Memory) (v : Level) (a b : List MicroOp) :
    sentBits m v (a ++ b) = sentBits m v a ++ sentBits m (levelAfter m .sin v a) b := by
  induction a generalizing v with
  | nil => rfl
  | cons op a ih => rw [List.cons_append, sentBits_cons, sentBits_cons, ih, List.append_assoc]; rfl

theorem take_succ_of_getElem? {α : Type} {l : List α} {u : Nat} {x : α} (h : l[u]? = some x) :
    l.take (u + 1) = l.take u ++ [x] := by
  rw [List.take_add_one, h, Option.toList_some]

theorem levelAfter_take_succ (m : Memory) (l : Line) (v : Level) {prog : List MicroOp} {u : Nat} {op : MicroOp}
    (h : prog[u]? = some op) :
    levelAfter m l v (prog.take (u + 1)) = op.levelAfter m l (levelAfter m l v (prog.take u)) := by
  rw [take_succ_of_getElem? h, levelAfter_append]; rfl

theorem sentBits_take_succ (m : Memory) (v : Level) {prog : List MicroOp} {u : Nat} {op : MicroOp}
    (h : prog[u]? = some op) :
    sentBits m v (prog.take (u + 1)) =
      sentBits m v (prog.take u) ++ op.sent (levelAfter m .sin v (prog.take u)) := by
  rw [take_succ_of_getElem? h, sentBits_append, sentBits_cons]; simp [sentBits]

/-! ### A part of a micro-program -/

/-- The list `part` stands in `prog` from position `base` on. -/
def StandsAt (part : List MicroOp) (base : Nat) (prog : List MicroOp) : Prop :=
  ∀ k < part.length, prog[base + k]? = part[k]?

theorem StandsAt.refl (prog : List MicroOp) : StandsAt prog 0 prog := fun k _ => by rw [Nat.zero_add]

theorem StandsAt.initDc (n : Nat) : StandsAt (dcProgram n 63) 5 (initProgram n) := fun k hk =>
  initProgram_dc n k (by rwa [length_dcProgram] at hk)

theorem StandsAt.initDisplay (n : Nat) : StandsAt (displayProgram n) (288 * n + 13) (initProgram n) := fun k hk =>
  initProgram_display n k (by rwa [length_displayProgram] at hk)

theorem StandsAt.take {part prog : List MicroOp} {base k : Nat} (h : StandsAt part base prog) (hk : k ≤ part.length) :
    prog.take (base + k) = prog.take base ++ part.take k := by
  induction k with
  | zero => simp
  | succ k ih =>
    rw [← Nat.add_assoc, List.take_add_one, h k hk, ih (by omega), List.take_add_one, List.append_assoc]

/-! ### The transmitted bits of a part (R124) -/

theorem MicroOp.DrivesSin.sent {m : Memory} {b : Bool} {op : MicroOp} (h : op.DrivesSin m b) (v : Level) :
    op.sent v = [] := by
  obtain rfl | ⟨p, rfl, -⟩ := h <;> rfl

/-- From position 2 on the program sends K bits, each by its triple. -/
def SendsBits (m : Memory) (prog : List MicroOp) (K : Nat) (bit : Nat → Bool) : Prop :=
  ∀ k < K, ∃ sin : MicroOp, sin.DrivesSin m (bit k) ∧ ∀ r < 3, prog[2 + (3 * k + r)]? = (bitTriple sin)[r]?

theorem displayProgram_sendsBits (m : Memory) (n : Nat) :
    SendsBits m (displayProgram n) (192 * n) (Memory.bit m) := fun p hp =>
  ⟨.sinfb p, .inr ⟨p, rfl, rfl⟩, fun r hr => displayProgram_bit n p r hp hr⟩

theorem dcProgram_sendsBits (m : Memory) (n v : Nat) :
    SendsBits m (dcProgram n v) (96 * n) (fun q => v.testBit (5 - q % 6)) := fun q hq =>
  ⟨.sinv (v.testBit (5 - q % 6)), .inl rfl, fun r hr => dcProgram_bit n v q r hq hr⟩

section
variable {m : Memory} {prog : List MicroOp} {K : Nat} {bit : Nat → Bool} (h : SendsBits m prog K bit)
include h

/-- The operations of bit k, one by one. -/
theorem SendsBits.ops {k : Nat} (hk : k < K) : ∃ sin : MicroOp, sin.DrivesSin m (bit k) ∧
    prog[2 + 3 * k]? = some sin ∧ prog[2 + 3 * k + 1]? = some (.lset .sclk true) ∧
    prog[2 + 3 * k + 2]? = some (.lset .sclk false) := by
  obtain ⟨sin, hsin, hops⟩ := h k hk
  exact ⟨sin, hsin, hops 0 (by omega), hops 1 (by omega), hops 2 (by omega)⟩

/-- While bits are sent no line but SIN and SCLK moves. -/
theorem SendsBits.levelAfter_of_ne {k : Nat} (hk : k ≤ K) {l : Line} (hsin : l ≠ .sin) (hsclk : l ≠ .sclk)
    (v : Level) : levelAfter m l v (prog.take (2 + 3 * k)) = levelAfter m l v (prog.take 2) := by
  induction k with
  | zero => rfl
  | succ k ih =>
    obtain ⟨sin, hdrives, h0, h1, h2⟩ := h.ops hk
    rw [show 2 + 3 * (k + 1) = 2 + 3 * k + 2 + 1 by omega, levelAfter_take_succ m l v h2,
      levelAfter_take_succ m l v h1, levelAfter_take_succ m l v h0, ih (by omega), hdrives.levelAfter, if_neg hsin]
    simp only [MicroOp.levelAfter, if_neg hsclk.symm]

/-- Between two bits SCLK is 0. -/
theorem SendsBits.sclk {k : Nat} (hk : k ≤ K) {v : Level} (hstart : levelAfter m .sclk v (prog.take 2) = .low) :
    levelAfter m .sclk v (prog.take (2 + 3 * k)) = .low := by
  cases k with
  | zero => exact hstart
  | succ k =>
    obtain ⟨sin, -, -, -, h2⟩ := h.ops hk
    rw [show 2 + 3 * (k + 1) = 2 + 3 * k + 2 + 1 by omega, levelAfter_take_succ m .sclk v h2]
    rfl

/-- Before SCLK rises for bit k it is 0, and SIN is at the bit. -/
theorem SendsBits.before_rise {k : Nat} (hk : k < K) {v : Level}
    (hstart : levelAfter m .sclk v (prog.take 2) = .low) (w : Level) :
    levelAfter m .sclk v (prog.take (3 + 3 * k)) = .low ∧
      levelAfter m .sin w (prog.take (3 + 3 * k)) = Level.ofBit (bit k) := by
  obtain ⟨sin, hdrives, h0, -, -⟩ := h.ops hk
  rw [show 3 + 3 * k = 2 + 3 * k + 1 by omega, levelAfter_take_succ m .sclk v h0,
    levelAfter_take_succ m .sin w h0, hdrives.levelAfter, hdrives.levelAfter]
  exact ⟨h.sclk (Nat.le_of_lt hk) hstart, rfl⟩

/-- The bits sent by the first k triples are the first k bits. -/
theorem SendsBits.sentBits {k : Nat} (hk : k ≤ K) (v : Level) :
    sentBits m v (prog.take (2 + 3 * k)) = sentBits m v (prog.take 2) ++ (List.range k).map bit := by
  induction k with
  | zero => simp
  | succ k ih =>
    obtain ⟨sin, hdrives, h0, h1, h2⟩ := h.ops hk
    have hbit : decide (Level.ofBit (bit k) = .high) = bit k := by cases bit k <;> rfl
    rw [show 2 + 3 * (k + 1) = 2 + 3 * k + 2 + 1 by omega, sentBits_take_succ m v h2, sentBits_take_succ m v h1,
      sentBits_take_succ m v h0, ih (by omega), levelAfter_take_succ m .sin v h0, hdrives.levelAfter, hdrives.sent,
      List.range_succ, List.map_append]
    simp [MicroOp.sent, hbit]

end

/-! ### Where DISPLAY and SETGLOBALDC leave the lines -/

/-- R67: the lines that are 0 between commands. -/
def Line.rests (l : Line) : Prop := l = .sclk ∨ l = .xlat ∨ l = .vprg

/-- R129: when its bits are sent, and at its end, DISPLAY leaves SCLK, XLAT and VPRG at 0. -/
theorem levelAfter_displayProgram (m : Memory) (n : Nat) {l : Line} (hl : l.rests) :
    levelAfter m l .low ((displayProgram n).take (576 * n + 2)) = .low := by
  have hbits := displayProgram_sendsBits m n
  rw [show 576 * n + 2 = 2 + 3 * (192 * n) by omega]
  obtain rfl | rfl | rfl := hl
  · exact hbits.sclk (Nat.le_refl _) rfl
  · exact hbits.levelAfter_of_ne (Nat.le_refl _) (by simp) (by simp) .low
  · exact hbits.levelAfter_of_ne (Nat.le_refl _) (by simp) (by simp) .low

theorem levelAfter_displayProgram_end (m : Memory) (n : Nat) {l : Line} (hl : l.rests) :
    levelAfter m l .low (displayProgram n) = .low := by
  rw [← List.take_of_length_le (Nat.le_of_eq (length_displayProgram n)),
    levelAfter_take_succ m l .low (displayProgram_last n)]
  exact levelAfter_displayProgram m n hl

/-- R129, R58: the bits DISPLAY sends are the frame. -/
theorem sentBits_displayProgram (m : Memory) (n : Nat) (v : Level) :
    sentBits m v ((displayProgram n).take (576 * n + 2)) = (List.range (192 * n)).map (Memory.bit m) := by
  rw [show 576 * n + 2 = 2 + 3 * (192 * n) by omega, (displayProgram_sendsBits m n).sentBits (Nat.le_refl _)]
  rfl

/-- R141: at its latch SETGLOBALDC has XLAT and SCLK at 0 and VPRG at 1. -/
theorem levelAfter_dcProgram_latch (m : Memory) (n v : Nat) {l : Line} (hl : l.rests) :
    levelAfter m l .low ((dcProgram n v).take (288 * n + 2)) = if l = .vprg then .high else .low := by
  have hbits := dcProgram_sendsBits m n v
  rw [show 288 * n + 2 = 2 + 3 * (96 * n) by omega]
  obtain rfl | rfl | rfl := hl
  · exact hbits.sclk (Nat.le_refl _) rfl
  · exact hbits.levelAfter_of_ne (Nat.le_refl _) (by simp) (by simp) .low
  · exact hbits.levelAfter_of_ne (Nat.le_refl _) (by simp) (by simp) .low

/-- R141: at its end SETGLOBALDC leaves SCLK, XLAT and VPRG at 0. -/
theorem levelAfter_dcProgram_end (m : Memory) (n v : Nat) {l : Line} (hl : l.rests) :
    levelAfter m l .low (dcProgram n v) = .low := by
  rw [← List.take_of_length_le (Nat.le_of_eq (length_dcProgram n v)),
    levelAfter_take_succ m l .low (dcProgram_tail n v 3), levelAfter_take_succ m l .low (dcProgram_tail n v 2),
    levelAfter_take_succ m l .low (dcProgram_tail n v 1), levelAfter_take_succ m l .low (dcProgram_tail n v 0),
    Nat.add_zero, levelAfter_dcProgram_latch m n v hl]
  obtain rfl | rfl | rfl := hl <;> rfl

/-- R142: the stream's bit q is bit 5 - q mod 6 of the value. -/
theorem dcStream_eq (n v : Nat) : dcStream n v = (List.range (96 * n)).map fun q => v.testBit (5 - q % 6) := by
  have hblock : ∀ x : Nat, ((List.range 6).map fun j => v.testBit (5 - j)).length = 6 := fun _ => by simp
  refine List.ext_getElem? fun q => ?_
  have hq : q = 6 * (q / 6) + q % 6 := by omega
  conv_lhs => rw [hq, dcStream, getElem?_flatMap_block _ _ 6 hblock _ _ (Nat.mod_lt q (by omega))]
  by_cases hlt : q < 96 * n
  · rw [List.getElem?_range (by omega)]
    simp [hlt, Nat.mod_lt q (show 6 > 0 by omega)]
  · have hblocks : (List.range (16 * n))[q / 6]? = none := List.getElem?_eq_none (by rw [List.length_range]; omega)
    have hbits : (List.range (96 * n))[q]? = none := List.getElem?_eq_none (by rw [List.length_range]; omega)
    simp [hblocks, hbits]

theorem length_dcStream (n v : Nat) : (dcStream n v).length = 96 * n := by simp [dcStream_eq]

/-- R142: the bits SETGLOBALDC sends are 16N copies of its value. -/
theorem sentBits_dcProgram (m : Memory) (n v : Nat) (w : Level) :
    sentBits m w ((dcProgram n v).take (288 * n + 2)) = dcStream n v := by
  rw [show 288 * n + 2 = 2 + 3 * (96 * n) by omega, (dcProgram_sendsBits m n v).sentBits (Nat.le_refl _), dcStream_eq]
  rfl

/-! ### Where each command finds the lines -/

/-- The level of SCLK, XLAT and VPRG where a command begins: not driven before INIT, else 0. -/
def startLevel : Instr → Level
  | .init => .undriven
  | _ => .low

/-- Where a command's display stands (R129, R175). -/
inductive DisplayPart (n : Nat) : Instr → Nat → Prop
  | display : DisplayPart n .display 0
  | init : DisplayPart n .init (288 * n + 13)

/-- Where a command's dot-correction load of v stands (R141, R172). -/
inductive DcPart : Instr → Nat → Nat → Prop
  | setglobaldc (v : Nat) : DcPart (.setglobaldc v) v 0
  | init : DcPart .init 63 5

/-- A part of a command's micro-program that sends bits, and where it stands. -/
inductive ShiftPart (n : Nat) (i : Instr) : List MicroOp → Nat → Prop
  | display {base : Nat} : DisplayPart n i base → ShiftPart n i (displayProgram n) base
  | dc {v base : Nat} : DcPart i v base → ShiftPart n i (dcProgram n v) base

theorem ShiftPart.standsAt {n base : Nat} {i : Instr} {part : List MicroOp} (h : ShiftPart n i part base) :
    StandsAt part base (programOf n i) := by
  cases h with
  | display hpart =>
    cases hpart with
    | display => exact .refl _
    | init => exact .initDisplay n
  | dc hpart =>
    cases hpart with
    | setglobaldc => exact .refl _
    | init => exact .initDc n

/-- INIT's pins leave SCLK, XLAT and VPRG at 0 (R171). -/
theorem levelAfter_initPins (m : Memory) (n : Nat) {l : Line} (hl : l.rests) :
    levelAfter m l .undriven ((initProgram n).take 5) = .low := by
  obtain rfl | rfl | rfl := hl <;> rfl

/-- Every part that sends bits finds SCLK, XLAT and VPRG at 0. -/
theorem ShiftPart.levelAfter_start {n base : Nat} {i : Instr} {part : List MicroOp} (h : ShiftPart n i part base)
    (m : Memory) {l : Line} (hl : l.rests) : levelAfter m l (startLevel i) ((programOf n i).take base) = .low := by
  cases h with
  | dc hpart =>
    cases hpart with
    | setglobaldc => rfl
    | init => exact levelAfter_initPins m n hl
  | display hpart =>
    cases hpart with
    | display => rfl
    | init =>
      have hdc := (StandsAt.initDc n).take (Nat.le_of_eq (length_dcProgram n 63).symm)
      rw [List.take_of_length_le (Nat.le_of_eq (length_dcProgram n 63)),
        show 5 + (288 * n + 6) = 288 * n + 11 by omega] at hdc
      rw [programOf, startLevel, show 288 * n + 13 = 288 * n + 11 + 1 + 1 by omega,
        levelAfter_take_succ m l .undriven (initProgram_interrupt n),
        levelAfter_take_succ m l .undriven (initProgram_timers n), hdc, levelAfter_append, levelAfter_initPins m n hl,
        levelAfter_dcProgram_end m n 63 hl]
      rfl

/-- The levels at a position of a part, from those where the part begins. -/
theorem ShiftPart.levelAfter_take {n base k : Nat} {i : Instr} {part : List MicroOp} (h : ShiftPart n i part base)
    (m : Memory) (l : Line) (v : Level) (hk : k ≤ part.length) :
    levelAfter m l v ((programOf n i).take (base + k)) =
      levelAfter m l (levelAfter m l v ((programOf n i).take base)) (part.take k) := by
  rw [h.standsAt.take hk, levelAfter_append]

/-- The bits sent at a position of a part end with those the part has sent. -/
theorem ShiftPart.sentBits_take {n base k : Nat} {i : Instr} {part : List MicroOp} (h : ShiftPart n i part base)
    (m : Memory) (v : Level) (hk : k ≤ part.length) :
    ∃ before w, sentBits m v ((programOf n i).take (base + k)) = before ++ sentBits m w (part.take k) := by
  rw [h.standsAt.take hk, sentBits_append]
  exact ⟨_, _, rfl⟩

/-! ### The operations of a command in progress -/

/-- INIT's pins are line writes, of 1 to BLANK alone (R171). -/
theorem initPins_cases {u : Nat} {op : MicroOp} (h : initPins[u]? = some op) :
    ∃ l b, op = .lset l b ∧ (b = true → l = .blank) := by
  match u with
  | 0 | 1 | 2 | 3 => cases h; exact ⟨_, _, rfl, by simp⟩
  | 4 => cases h; exact ⟨_, _, rfl, fun _ => rfl⟩
  | u + 5 => cases h

/-- An operation in progress is an accessor's body, one of a display or of a dot-correction load, or one of INIT's
own. -/
theorem programOf_cases {n u : Nat} {i : Instr} {op : MicroOp} (h : (programOf n i)[u]? = some op) :
    (∃ a : Accessor, i = a.command ∧ u = 0 ∧ op = .acc a) ∨
      (∃ base k, DisplayPart n i base ∧ u = base + k ∧ (displayProgram n)[k]? = some op) ∨
      (∃ v base k, DcPart i v base ∧ u = base + k ∧ (dcProgram n v)[k]? = some op) ∨
      (i = .init ∧ ((u < 5 ∧ ∃ l b, op = .lset l b ∧ (b = true → l = .blank)) ∨ (u = 288 * n + 11 ∧ op = .gset true) ∨
        (u = 288 * n + 12 ∧ op = .ieset true) ∨ (u = 864 * n + 16 ∧ op = .lifeset))) := by
  have haccessor : ∀ a : Accessor, i = a.command → ∃ a : Accessor, i = a.command ∧ u = 0 ∧ op = .acc a := by
    rintro a rfl
    exact ⟨a, rfl, accessorProgram_cases h⟩
  cases i with
  | clear => exact .inl (haccessor .clear rfl)
  | setled c v => exact .inl (haccessor (.setled c v) rfl)
  | getled c => exact .inl (haccessor (.getled c) rfl)
  | display => exact .inr (.inl ⟨0, u, .display, (Nat.zero_add u).symm, h⟩)
  | setglobaldc v => exact .inr (.inr (.inl ⟨v, 0, u, .setglobaldc v, (Nat.zero_add u).symm, h⟩))
  | init =>
    obtain ⟨hu, hpin⟩ | ⟨k, rfl, -, hop⟩ | htimers | hinterrupt | ⟨k, rfl, -, hop⟩ | hlast := initProgram_cases h
    · exact .inr (.inr (.inr ⟨rfl, .inl ⟨hu, initPins_cases hpin⟩⟩))
    · exact .inr (.inr (.inl ⟨63, 5, k, .init, rfl, hop⟩))
    · exact .inr (.inr (.inr ⟨rfl, .inr (.inl htimers)⟩))
    · exact .inr (.inr (.inr ⟨rfl, .inr (.inr (.inl hinterrupt))⟩))
    · exact .inr (.inl ⟨_, k, .init, rfl, hop⟩)
    · exact .inr (.inr (.inr ⟨rfl, .inr (.inr (.inr hlast))⟩))

/-- R124: where a command writes 1 to SCLK the line is 0, and SIN is at the bit to send. -/
theorem levelAfter_before_rise {n u : Nat} {i : Instr} (h : (programOf n i)[u]? = some (.lset .sclk true))
    (m : Memory) (w : Level) :
    levelAfter m .sclk (startLevel i) ((programOf n i).take u) = .low ∧
      ∃ b, levelAfter m .sin w ((programOf n i).take u) = Level.ofBit b := by
  have hrise : ∀ {part base K bit q}, ShiftPart n i part base → SendsBits m part K bit → q < K →
      3 + 3 * K ≤ part.length → (∀ v, levelAfter m .sclk v (part.take 2) = v) → u = base + (3 + 3 * q) →
      levelAfter m .sclk (startLevel i) ((programOf n i).take u) = .low ∧
        ∃ b, levelAfter m .sin w ((programOf n i).take u) = Level.ofBit b := by
    rintro part base K bit q hpart hbits hq hlen hstart rfl
    rw [hpart.levelAfter_take m .sclk _ (by omega), hpart.levelAfter_take m .sin _ (by omega),
      hpart.levelAfter_start m (.inl rfl)]
    obtain ⟨hsclk, hsin⟩ := hbits.before_rise hq (hstart .low) (levelAfter m .sin w ((programOf n i).take base))
    exact ⟨hsclk, _, hsin⟩
  obtain ⟨a, -, -, hop⟩ | ⟨base, k, hpart, rfl, hop⟩ | ⟨v, base, k, hpart, rfl, hop⟩ | ⟨-, hop⟩ := programOf_cases h
  · cases hop
  · obtain ⟨p, hp, rfl⟩ : ∃ p, p < 192 * n ∧ k = 3 + 3 * p := by simpa using displayProgram_cases hop
    exact hrise (.display hpart) (displayProgram_sendsBits m n) hp (by rw [length_displayProgram]; omega)
      (fun _ => rfl) rfl
  · obtain ⟨q, hq, rfl⟩ : ∃ q, q < 96 * n ∧ k = 3 + 3 * q := by simpa using dcProgram_cases hop
    exact hrise (.dc hpart) (dcProgram_sendsBits m n v) hq (by rw [length_dcProgram]; omega) (fun _ => rfl) rfl
  · simp at hop

/-! ### The latch of a dot-correction load -/

/-- The command latches dot-correction value v at micro-step u (R141, R172). -/
def LatchesDc (n : Nat) (i : Instr) (u v : Nat) : Prop := ∃ base, DcPart i v base ∧ u = base + (288 * n + 2)

/-- R141, R172: a command's write of 1 to XLAT is the latch of a dot-correction load. -/
theorem programOf_latch {n u : Nat} {i : Instr} (h : (programOf n i)[u]? = some (.lset .xlat true)) :
    ∃ v, LatchesDc n i u v := by
  obtain ⟨a, -, -, hop⟩ | ⟨base, k, -, -, hop⟩ | ⟨v, base, k, hpart, rfl, hop⟩ | ⟨-, hop⟩ := programOf_cases h
  · cases hop
  · simpa using displayProgram_cases hop
  · have hk : k = 288 * n + 2 := by simpa using dcProgram_cases hop
    exact ⟨v, base, hpart, by rw [hk]⟩
  · simp at hop

theorem LatchesDc.op {n u v : Nat} {i : Instr} (h : LatchesDc n i u v) :
    (programOf n i)[u]? = some (.lset .xlat true) := by
  obtain ⟨base, hpart, rfl⟩ := h
  rw [(ShiftPart.dc (n := n) hpart).standsAt _ (by rw [length_dcProgram]; omega)]
  exact dcProgram_tail n v 0

/-- At the latch XLAT is 0 and VPRG is 1. -/
theorem LatchesDc.levels {n u v : Nat} {i : Instr} (h : LatchesDc n i u v) (m : Memory) :
    levelAfter m .xlat (startLevel i) ((programOf n i).take u) = .low ∧
      levelAfter m .vprg (startLevel i) ((programOf n i).take u) = .high := by
  obtain ⟨base, hdc, rfl⟩ := h
  have hpart := ShiftPart.dc (n := n) hdc
  have hlen : 288 * n + 2 ≤ (dcProgram n v).length := by rw [length_dcProgram]; omega
  rw [hpart.levelAfter_take m _ _ hlen, hpart.levelAfter_take m _ _ hlen, hpart.levelAfter_start m (.inr (.inl rfl)),
    hpart.levelAfter_start m (.inr (.inr rfl)), levelAfter_dcProgram_latch m n v (.inr (.inl rfl)),
    levelAfter_dcProgram_latch m n v (.inr (.inr rfl))]
  exact ⟨rfl, rfl⟩

/-- At the latch the bits sent end with 16N copies of the value. -/
theorem LatchesDc.sentBits {n u v : Nat} {i : Instr} (h : LatchesDc n i u v) (m : Memory) (w : Level) :
    ∃ before, sentBits m w ((programOf n i).take u) = before ++ dcStream n v := by
  obtain ⟨base, hpart, rfl⟩ := h
  obtain ⟨before, x, hsent⟩ := (ShiftPart.dc (n := n) hpart).sentBits_take m w (k := 288 * n + 2)
    (by rw [length_dcProgram]; omega)
  exact ⟨before, by rw [hsent, sentBits_dcProgram]⟩

/-! ### The operation that sets TP -/

/-- The command sets TP at micro-step u, the last of its display (R129, R175). -/
def SetsTp (n : Nat) (i : Instr) (u : Nat) : Prop := ∃ base, DisplayPart n i base ∧ u = base + (576 * n + 2)

theorem programOf_fset_tp {n u : Nat} {i : Instr} {b : Bool} (h : (programOf n i)[u]? = some (.fset .tp b)) :
    b = true ∧ SetsTp n i u := by
  obtain ⟨a, -, -, hop⟩ | ⟨base, k, hpart, rfl, hop⟩ | ⟨v, base, k, -, -, hop⟩ | ⟨-, hop⟩ := programOf_cases h
  · cases hop
  · obtain ⟨-, hb, hk⟩ := displayProgram_fset hop
    exact ⟨hb, base, hpart, by rw [hk]⟩
  · cases (dcProgram_fset hop).1
  · simp at hop

/-- Where TP is set the bits sent end with the frame. -/
theorem SetsTp.sentBits {n u : Nat} {i : Instr} (h : SetsTp n i u) (m : Memory) (w : Level) :
    ∃ before, sentBits m w ((programOf n i).take u) = before ++ (List.range (192 * n)).map (Memory.bit m) := by
  obtain ⟨base, hpart, rfl⟩ := h
  obtain ⟨before, x, hsent⟩ := (ShiftPart.display hpart).sentBits_take m w (k := 576 * n + 2)
    (by rw [length_displayProgram]; omega)
  exact ⟨before, by rw [hsent, sentBits_displayProgram]⟩

/-! ### The operations that happen at most once -/

/-- GSCLK_RUN is set by INIT's timers alone (R173). -/
theorem programOf_gset {n u : Nat} {i : Instr} {b : Bool} (h : (programOf n i)[u]? = some (.gset b)) :
    b = true ∧ i = .init ∧ u = 288 * n + 11 := by
  obtain ⟨a, -, -, hop⟩ | ⟨base, k, -, -, hop⟩ | ⟨v, base, k, -, -, hop⟩ | ⟨hi, hop⟩ := programOf_cases h
  · cases hop
  · simpa using displayProgram_cases hop
  · simpa using dcProgram_cases hop
  · obtain ⟨hu, hb⟩ : u = 288 * n + 11 ∧ b = true := by simpa using hop
    exact ⟨hb, hi, hu⟩

/-- IE is set by INIT's interrupt enable alone (R174). -/
theorem programOf_ieset {n u : Nat} {i : Instr} {b : Bool} (h : (programOf n i)[u]? = some (.ieset b)) :
    b = true ∧ i = .init ∧ u = 288 * n + 12 := by
  obtain ⟨a, -, -, hop⟩ | ⟨base, k, -, -, hop⟩ | ⟨v, base, k, -, -, hop⟩ | ⟨hi, hop⟩ := programOf_cases h
  · cases hop
  · simpa using displayProgram_cases hop
  · simpa using dcProgram_cases hop
  · obtain ⟨hu, hb⟩ : u = 288 * n + 12 ∧ b = true := by simpa using hop
    exact ⟨hb, hi, hu⟩

/-- LIFESET is INIT's last micro-step alone (R176). -/
theorem programOf_lifeset {n u : Nat} {i : Instr} (h : (programOf n i)[u]? = some .lifeset) :
    i = .init ∧ u = 864 * n + 16 := by
  obtain ⟨a, -, -, hop⟩ | ⟨base, k, -, -, hop⟩ | ⟨v, base, k, -, -, hop⟩ | ⟨hi, hop⟩ := programOf_cases h
  · cases hop
  · simpa using displayProgram_cases hop
  · simpa using dcProgram_cases hop
  · exact ⟨hi, by simpa using hop⟩

/-- A wait is the first micro-step of its command, or one of INIT's two. -/
theorem programOf_wait {n u : Nat} {i : Instr} (h : (programOf n i)[u]? = some .waitTp0) : i = .init ∨ u = 0 := by
  obtain ⟨a, -, -, hop⟩ | ⟨base, k, hpart, rfl, hop⟩ | ⟨v, base, k, hpart, rfl, hop⟩ | ⟨hi, -⟩ := programOf_cases h
  · cases hop
  · have hk : k = 0 := by simpa using displayProgram_cases hop
    cases hpart with
    | display => exact .inr (by rw [hk])
    | init => exact .inl rfl
  · have hk : k = 0 := by simpa using dcProgram_cases hop
    cases hpart with
    | setglobaldc => exact .inr (by rw [hk])
    | init => exact .inl rfl
  · exact .inl hi

/-- An accessor's body is its command's only micro-step. -/
theorem programOf_acc {n u : Nat} {i : Instr} {a : Accessor} (h : (programOf n i)[u]? = some (.acc a)) :
    i = a.command ∧ u = 0 := by
  obtain ⟨a', hi, hu, hop⟩ | ⟨base, k, -, -, hop⟩ | ⟨v, base, k, -, -, hop⟩ | ⟨hi, hop⟩ := programOf_cases h
  · cases hop; exact ⟨hi, hu⟩
  · simpa using displayProgram_cases hop
  · simpa using dcProgram_cases hop
  · simp at hop

/-- The bit SINFB reads is one of the frame's (R129). -/
theorem programOf_sinfb {n u p : Nat} {i : Instr} (h : (programOf n i)[u]? = some (.sinfb p)) : p < 192 * n := by
  obtain ⟨a, -, -, hop⟩ | ⟨base, k, -, -, hop⟩ | ⟨v, base, k, -, -, hop⟩ | ⟨-, hop⟩ := programOf_cases h
  · cases hop
  · obtain ⟨q, hq, -, rfl⟩ : ∃ q, q < 192 * n ∧ k = 2 + 3 * q ∧ p = q := by simpa using displayProgram_cases hop
    exact hq
  · simpa using dcProgram_cases hop
  · simp at hop

/-! ### The ends of the commands -/

/-- R67: at its end every command leaves SCLK, XLAT and VPRG at 0. -/
theorem levelAfter_programOf (m : Memory) (n : Nat) (i : Instr) {l : Line} (hl : l.rests) :
    levelAfter m l (startLevel i) (programOf n i) = .low := by
  cases i with
  | display => exact levelAfter_displayProgram_end m n hl
  | setglobaldc v => exact levelAfter_dcProgram_end m n v hl
  | clear | setled | getled => rfl
  | init =>
    have hpart : ShiftPart n .init (displayProgram n) (288 * n + 13) := .display .init
    have hdisp := hpart.levelAfter_take m l (startLevel .init) (Nat.le_of_eq (length_displayProgram n).symm)
    rw [List.take_of_length_le (Nat.le_of_eq (length_displayProgram n)), hpart.levelAfter_start m hl,
      levelAfter_displayProgram_end m n hl, show 288 * n + 13 + (576 * n + 3) = 864 * n + 16 by omega] at hdisp
    rw [programOf, startLevel, ← List.take_of_length_le (Nat.le_of_eq (length_initProgram n)),
      levelAfter_take_succ m l .undriven (initProgram_last n)]
    exact hdisp

end Sys2Proof.Machine

/-! PROOFS. The owner's step given what it does, runs of the owner, and the frame buffer's fields: R51 to R58 and R100
to R106. -/

namespace Sys2Proof.Machine

/-! ### The owner's step, given its operation -/

/-- Without a firing the step is the owner's (R186). -/
theorem stepWith_of_no_firing {fires : Bool} {s : State} (hfault : s.fault = none) (hno : (s.ie && fires) = false) :
    stepWith fires s = s.tickOn.ownerStep := by
  simp only [stepWith, hfault, hno, Bool.false_eq_true, if_false]

theorem State.ownerStep_of_busy {s : State} {i : Instr} {u : Nat} (hown : s.own = .busy i u) :
    s.ownerStep = exec i s := by
  simp only [State.ownerStep, hown]

theorem State.ownerStep_of_word {s : State} {w : Word} {rest : List Word} {i : Instr} (hown : s.own = .idle)
    (hhost : s.host = w :: rest) (hdec : decode w = .ok i) : s.ownerStep = exec i { s with host := rest } := by
  simp only [State.ownerStep, hown, hhost, State.issueWord, hdec]

theorem State.ownerStep_of_no_word {s : State} (hown : s.own = .idle) (hhost : s.host = []) : s.ownerStep = .next s := by
  simp only [State.ownerStep, hown, hhost]

/-- The owner's turn performs the next micro-operation (R120). -/
theorem stepWith_of_run {fires : Bool} {s v : State} {i : Instr} {u : Nat} {op : MicroOp} (hfault : s.fault = none)
    (hno : (s.ie && fires) = false) (hown : s.own = .busy i u) (hop : (programOf s.cfg.numDrivers i)[u]? = some op)
    (hwait : op = .waitTp0 → s.tp = false) (hrun : op.run s = .ok v) :
    stepWith fires s =
      .next { v with own := ownAfter i (programOf s.cfg.numDrivers i).length u, tick := s.tick + 1 } := by
  rw [stepWith_of_no_firing hfault hno, State.ownerStep_of_busy (s := s.tickOn) hown,
    exec_of_run (s := s.tickOn) hfault hown hop hwait (MicroOp.run_withOwnTick s.own (s.tick + 1) hrun)]
  rfl

/-- The owner's turn issues a word the block accepts (R185). -/
theorem stepWith_of_accepts {fires : Bool} {s : State} {w : Word} {rest : List Word} {i : Instr}
    (hfault : s.fault = none) (hno : (s.ie && fires) = false) (hown : s.own = .idle) (hhost : s.host = w :: rest)
    (hdec : decode w = .ok i) (hacc : s.accepts i = true) :
    stepWith fires s = .next { s with host := rest, own := .busy i 0, tick := s.tick + 1 } := by
  rw [stepWith_of_no_firing hfault hno, State.ownerStep_of_word (s := s.tickOn) hown hhost hdec,
    exec_of_idle (s := { s.tickOn with host := rest }) hfault hown]
  obtain ⟨-, hissue⟩ | ⟨code, hrefused, -⟩ := State.issue_cases i { s.tickOn with host := rest }
  · rw [hissue]; rfl
  · have hsame : State.accepts i { s.tickOn with host := rest } = s.accepts i := by cases i <;> rfl
    rw [hsame, hacc] at hrefused
    cases hrefused

/-- The owner's turn at a wait holds while TP = 1 (R121; log 4). -/
theorem stepWith_of_wait {fires : Bool} {s : State} {i : Instr} {u : Nat} (hfault : s.fault = none)
    (hno : (s.ie && fires) = false) (hown : s.own = .busy i u)
    (hop : (programOf s.cfg.numDrivers i)[u]? = some .waitTp0) (htp : s.tp = true) :
    stepWith fires s = .next s.tickOn := by
  rw [stepWith_of_no_firing hfault hno, State.ownerStep_of_busy (s := s.tickOn) hown,
    exec_of_wait (s := s.tickOn) hfault hown hop htp]

/-! ### Runs -/

theorem runWith_cons {fires : Bool} {rest : List Bool} {s t : State} (h : stepWith fires s = .next t) :
    runWith (fires :: rest) s = runWith rest t := by
  simp only [runWith, h]

theorem runWith_append {a b : List Bool} {s t : State} (h : runWith a s = .next t) :
    runWith (a ++ b) s = runWith b t := by
  induction a generalizing s with
  | nil => cases h; rfl
  | cons fires a ih =>
    cases hstep : stepWith fires s with
    | next x =>
      rw [runWith_cons hstep] at h
      rw [List.cons_append, runWith_cons hstep, ih h]
    | fault f => simp [runWith, hstep] at h
    | refused r => simp [runWith, hstep] at h

theorem ownerRun_succ {k : Nat} {s t : State} (h : stepWith false s = .next t) :
    ownerRun (k + 1) s = ownerRun k t :=
  runWith_cons h

theorem ownerRun_add {j k : Nat} {s t : State} (h : ownerRun j s = .next t) : ownerRun (j + k) s = ownerRun k t := by
  rw [ownerRun, List.replicate_add]
  exact runWith_append h

/-! ### A field's bits are buffer bits (R52, R53) -/

/-- Bit 11 - j of a field is bit 12c + j of its two bytes in serial order. -/
theorem getLsbD_fieldOfBytes (c : Nat) (b0 b1 : Byte) {j : Nat} (hj : j < 12) :
    (fieldOfBytes c b0 b1).getLsbD (11 - j) =
      if (12 * c + j) / 8 = fieldByte c then bitOfByte (12 * c + j) b0 else bitOfByte (12 * c + j) b1 := by
  have hparity : 12 * c % 8 = 0 ∨ 12 * c % 8 = 4 := by omega
  unfold fieldOfBytes bitOfByte fieldByte
  obtain h0 | h4 := hparity
  · rw [if_pos (fieldAligned_iff.mpr h0), BitVec.getLsbD_append]
    by_cases hfirst : j < 8
    · rw [if_neg (by omega), if_pos (by omega), show 11 - j - 4 = 7 - (12 * c + j) % 8 by omega]
    · rw [if_pos (by omega), if_neg (by omega), BitVec.getLsbD_extractLsb', decide_eq_true (by omega), Bool.true_and,
        show 4 + (11 - j) = 7 - (12 * c + j) % 8 by omega]
  · rw [if_neg (mt fieldAligned_iff.mp (by omega)), BitVec.getLsbD_append]
    by_cases hfirst : j < 4
    · rw [if_neg (by omega), if_pos (by omega), BitVec.getLsbD_extractLsb', decide_eq_true (by omega), Bool.true_and,
        show 0 + (11 - j - 8) = 7 - (12 * c + j) % 8 by omega]
    · rw [if_pos (by omega), if_neg (by omega), show 11 - j = 7 - (12 * c + j) % 8 by omega]

/-- The field of a legal channel, by its bits. -/
theorem State.fieldRead_bits {s : State} {c : Nat} (hc : c < s.cfg.channels) :
    ∃ f, s.fieldRead c = .ok f ∧ ∀ j < 12, Memory.bit s.fb (12 * c + j) = f.getLsbD (11 - j) := by
  refine ⟨_, State.fieldRead_of_lt hc, fun j hj => ?_⟩
  have hbyte : (12 * c + j) / 8 = fieldByte c ∨ (12 * c + j) / 8 = fieldByte c + 1 := by unfold fieldByte; omega
  rw [getLsbD_fieldOfBytes c _ _ hj, Memory.bit]
  obtain h0 | h1 := hbyte
  · rw [if_pos h0, h0]
  · rw [if_neg (by omega), h1]

/-- Settles O7: the two bytes of the field are the buffer's bytes of its bits. -/
theorem fieldBitsAreBufferBits : Obligations.FieldBitsAreBufferBits := fun _ _ => State.fieldRead_bits

/-- Fields of equal bits are equal. -/
theorem Field.ext_msb {f g : Field} (h : ∀ j < 12, f.getLsbD (11 - j) = g.getLsbD (11 - j)) : f = g := by
  refine BitVec.eq_of_getLsbD_eq fun i hi => ?_
  have := h (11 - i) (by omega)
  rwa [show 11 - (11 - i) = i by omega] at this

/-- Writing one channel's field leaves every other channel's (R105). -/
theorem State.fieldRead_fieldWritten_ne {s : State} {c d : Nat} (v : Field) (hwf : Memory.wf s.fb = true)
    (hne : c ≠ d) (hd : d < s.cfg.channels) :
    ({ s with fb := fieldWritten s.fb c v } : State).fieldRead d = s.fieldRead d := by
  obtain ⟨f, hf, hfbits⟩ := State.fieldRead_bits (s := { s with fb := fieldWritten s.fb c v }) hd
  obtain ⟨g, hg, hgbits⟩ := State.fieldRead_bits hd
  rw [hf, hg]
  congr 1
  refine Field.ext_msb fun j hj => ?_
  rw [← hfbits j hj, ← hgbits j hj]
  exact Memory.bit_fieldWritten v hwf (by omega)

/-- Settles O13: SETLED's step writes one field at most, and the fields of two channels share no buffer bit. -/
theorem setledLeavesOtherChannels : Obligations.SetledLeavesOtherChannels := by
  intro s t c d v hfb hne hd h
  obtain ⟨-, ⟨-, rfl⟩ | ⟨-, u, hrun, rfl⟩⟩ := Accessor.exec_cases (a := .setled c v) h
  · obtain ⟨o, f, hissue⟩ := State.issue_frame (.setled c v) (s.checksOf (.setled c v)) s
    rw [Accessor.command, hissue]
    rfl
  · obtain ⟨-, rfl⟩ := State.fieldWrite_ok hrun
    exact State.fieldRead_fieldWritten_ne _ hfb.canonical hne hd

/-- A field that answers is a legal channel's (R51). -/
theorem State.fieldRead_ok {s : State} {c : Nat} {f : Field} (h : s.fieldRead c = .ok f) : c < s.cfg.channels := by
  by_contra hc
  have hbyte : ¬ fieldByte c + 1 < s.cfg.fbBytes := by
    unfold Config.channels at hc
    unfold fieldByte Config.fbBytes
    omega
  unfold State.fieldRead at h
  rw [show s.memRead (fieldByte c + 1) = .error (.noSuchByte (fieldByte c + 1)) from if_neg hbyte] at h
  cases h1 : s.memRead (fieldByte c) <;> simp [h1] at h

/-! ### The scale of an intensity (R102, R103) -/

theorem Config.resolution_le {c : Config} (h : c.legal = true) : c.resolutionBits ≤ 12 :=
  ((Config.legal_iff c.numDrivers c.resolutionBits).mp h).2.2

theorem Config.one_le_numDrivers {c : Config} (h : c.legal = true) : 1 ≤ c.numDrivers :=
  ((Config.legal_iff c.numDrivers c.resolutionBits).mp h).1.1

/-- The scale of the stored value and the range of the intensity make up the field. -/
theorem Config.scale_mul {c : Config} (h : c.legal = true) : 2 ^ c.resolutionBits * 2 ^ (12 - c.resolutionBits) = 4096 := by
  rw [← Nat.pow_add, Nat.add_sub_cancel' (Config.resolution_le h)]

theorem toNat_storedValue {c : Config} {v : Nat} (h : c.legal = true) (hv : v < 2 ^ c.resolutionBits) :
    (storedValue c v).toNat = v * 2 ^ (12 - c.resolutionBits) := by
  have hlt : v * 2 ^ (12 - c.resolutionBits) < 4096 :=
    Config.scale_mul h ▸ Nat.mul_lt_mul_of_pos_right hv (Nat.two_pow_pos _)
  rw [storedValue, BitVec.toNat_ofNat, Nat.shiftLeft_eq, Nat.mod_eq_of_lt hlt]

theorem toNat_intensityOf (c : Config) (f : Field) : (intensityOf c f).toNat = f.toNat / 2 ^ (12 - c.resolutionBits) := by
  rw [intensityOf, BitVec.toNat_ushiftRight, Nat.shiftRight_eq_div_pow]

/-- Settles O9: the stored value is a multiple of the scale, below 4096. -/
theorem storedValueScales : Obligations.StoredValueScales := by
  intro c v h hv
  rw [toNat_intensityOf, toNat_storedValue h hv]
  exact ⟨rfl, Nat.mul_mod_left v _, Nat.mul_div_cancel v (Nat.two_pow_pos _)⟩

/-- R102, R103: the intensity of a stored value is the value. -/
theorem intensityOf_storedValue {c : Config} {v : Nat} (h : c.legal = true) (hv : v < 2 ^ c.resolutionBits) :
    intensityOf c (storedValue c v) = BitVec.ofNat 12 v := by
  have hle : 2 ^ c.resolutionBits ≤ 2 ^ 12 := Nat.pow_le_pow_right (by omega) (Config.resolution_le h)
  refine BitVec.eq_of_toNat_eq ?_
  rw [(storedValueScales c v h hv).2.2, BitVec.toNat_ofNat, Nat.mod_eq_of_lt (by omega)]

/-! ### The accessors' micro-steps -/

/-- R101: SETLED's micro-step. -/
theorem exec_setled {s : State} {c v : Nat} (hfault : s.fault = none) (hown : s.own = .busy (.setled c v) 0)
    (hc : c < s.cfg.channels) :
    exec (.setled c v) s = .next { s with fb := fieldWritten s.fb c (storedValue s.cfg v), own := .idle } :=
  Accessor.exec_of_busy (a := .setled c v) hfault hown (State.fieldWrite_of_lt _ hc)

/-- Settles O8: both bytes of a legal channel's field exist. -/
theorem setledStoresTheIntensity : Obligations.SetledStoresTheIntensity := fun _ _ _ => exec_setled

/-- Settles O10: the field of a legal channel answers. -/
theorem getledReturnsTheIntensity : Obligations.GetledReturnsTheIntensity := by
  intro s c hfault hown hc
  have hread := State.fieldRead_of_lt hc
  exact ⟨_, hread, Accessor.exec_of_busy (a := .getled c) hfault hown (State.getledBody_of_read hread)⟩

/-- Settles O11: zeroing every byte of a canonical buffer lists nothing. -/
theorem clearZeroesTheBuffer : Obligations.ClearZeroesTheBuffer := by
  intro s hfb hfault hown
  exact ⟨Accessor.exec_of_busy (a := .clear) hfault hown (State.clearBody_eq hfb),
    fun i hi => State.memRead_of_lt (s := { s with fb := [], own := .idle }) hi⟩

/-! ### A value stored and read back (R104) -/

/-- The two owner steps of an accessor's command, from its word: the issue and the body. -/
theorem ownerRun_accessor {a : Accessor} {s v : State} {rest : List Word} (hfault : s.fault = none)
    (hown : s.own = .idle) (hhost : s.host = encode a.command :: rest) (hwf : a.command.wf = true)
    (hacc : s.accepts a.command = true)
    (hrun : a.run { s with host := rest, own := .busy a.command 0, tick := s.tick + 1 } = .ok v) :
    ownerRun 2 s = .next { v with own := .idle, tick := s.tick + 2 } := by
  have hop : (programOf s.cfg.numDrivers a.command)[0]? = some (.acc a) := by rw [programOf_command]; rfl
  have hlen : (programOf s.cfg.numDrivers a.command).length = 1 := by rw [programOf_command]; rfl
  rw [ownerRun_succ (stepWith_of_accepts hfault (Bool.and_false _) hown hhost (decode_encode hwf) hacc),
    ownerRun_succ (stepWith_of_run (s := { s with host := rest, own := .busy a.command 0, tick := s.tick + 1 }) hfault
      (Bool.and_false _) rfl hop (by simp) hrun), hlen]
  rfl

/-- Settles O12: SETLED stores the scaled value in the field that GETLED then reads and scales back. -/
theorem setledThenGetledReturnsTheValue : Obligations.SetledThenGetledReturnsTheValue := by
  intro s c v hfb hlegal hfault hown hlife hc hv hhost
  have hchannel : c < 65536 := by
    have hn := ((Config.legal_iff s.cfg.numDrivers s.cfg.resolutionBits).mp hlegal).1.2
    unfold Config.channels at hc
    omega
  have hvalue : v < 4096 := hv.trans_le (Nat.pow_le_pow_right (by omega) (Config.resolution_le hlegal))
  have hset := ownerRun_accessor (a := .setled c v) hfault hown hhost (by simp [Accessor.command, Instr.wf, *])
    (by simp [Accessor.command, State.accepts, *]) (State.fieldWrite_of_lt (s := { s with
      host := [encode (.getled c)], own := .busy (.setled c v) 0, tick := s.tick + 1 }) _ hc)
  have hread := State.fieldRead_fieldWritten (storedValue s.cfg v) hfb.canonical hc
  have hget := ownerRun_accessor (a := .getled c) (s := { s with
      fb := fieldWritten s.fb c (storedValue s.cfg v), host := [encode (.getled c)], own := .idle, tick := s.tick + 2 })
    hfault rfl rfl (by simp [Accessor.command, Instr.wf, hchannel])
    (by simp [Accessor.command, State.accepts, hlife, hc]) (State.getledBody_of_read hread)
  refine ⟨_, (ownerRun_add hset).trans hget, ?_, rfl, hfault⟩
  exact congrArg (fun x => s.resp ++ [x]) (intensityOf_storedValue hlegal hv)

end Sys2Proof.Machine

/-! PROOFS. The invariant: it holds at reset, and every step keeps it. -/

namespace Sys2Proof.Machine

/-! ### What a micro-operation does to each part of the state -/

/-- The level a micro-operation leaves a line at. -/
theorem MicroOp.run_line {op : MicroOp} {s t : State} (h : op.run s = .ok t) (k : Line) :
    t.line k = op.levelAfter s.fb k (s.line k) := by
  obtain ⟨l, b, hop, rfl⟩ | ⟨rfl, rfl⟩ | ⟨f, b, rfl, rfl⟩ | ⟨b, rfl, rfl⟩ | ⟨b, rfl, rfl⟩ | ⟨rfl, rfl⟩ |
    ⟨a, rfl, ha⟩ := MicroOp.run_cases h
  · rw [State.driveLine_line, hop.levelAfter]
  · rfl
  · cases f <;> cases k <;> rfl
  · simp [MicroOp.levelAfter]
  · cases k <;> rfl
  · cases k <;> rfl
  · obtain ⟨m, r, rfl⟩ := Accessor.run_ok ha
    cases k <;> rfl

/-- The bits a micro-operation has the chain take, where SCLK rises from 0 with SIN driven (R124, R200). -/
theorem MicroOp.run_sr {op : MicroOp} {s t : State} (h : op.run s = .ok t)
    (hrise : op = .lset .sclk true → s.sclk = .low ∧ ∃ b, s.sin = Level.ofBit b) :
    t.sr = s.sr ++ op.sent s.sin := by
  obtain ⟨l, b, hop, rfl⟩ | ⟨rfl, rfl⟩ | ⟨f, b, rfl, rfl⟩ | ⟨b, rfl, rfl⟩ | ⟨b, rfl, rfl⟩ | ⟨rfl, rfl⟩ |
    ⟨a, rfl, ha⟩ := MicroOp.run_cases h
  · obtain rfl | ⟨rfl, hsin⟩ := hop
    · cases l <;> cases b <;> try simp [State.observe, MicroOp.sent, apply_ite]
      obtain ⟨hsclk, x, hsin⟩ := hrise rfl
      cases x <;> simp [hsclk, hsin, State.takeBit, Level.ofBit]
    · simp [hsin.sent, State.observe]
  all_goals simp [MicroOp.sent]
  obtain ⟨m, r, rfl⟩ := Accessor.run_ok ha
  rfl

/-- Only an accessor writes FB or RESP. -/
theorem MicroOp.run_fb_resp {op : MicroOp} {s t : State} (h : op.run s = .ok t) :
    (t.fb = s.fb ∧ t.resp = s.resp) ∨ ∃ a : Accessor, op = .acc a := by
  obtain ⟨l, b, -, rfl⟩ | ⟨-, rfl⟩ | ⟨f, b, -, rfl⟩ | ⟨b, -, rfl⟩ | ⟨b, -, rfl⟩ | ⟨-, rfl⟩ | ⟨a, hop, -⟩ :=
    MicroOp.run_cases h
  case inr.inr.inr.inr.inr.inr => exact .inr ⟨a, hop⟩
  all_goals exact .inl (by simp)

/-- Only an FSET of TP writes TP. -/
theorem MicroOp.run_tp {op : MicroOp} {s t : State} (h : op.run s = .ok t) : t.tp = s.tp ∨ op = .fset .tp t.tp := by
  obtain ⟨l, b, -, rfl⟩ | ⟨-, rfl⟩ | ⟨f, b, rfl, rfl⟩ | ⟨b, -, rfl⟩ | ⟨b, -, rfl⟩ | ⟨-, rfl⟩ | ⟨a, -, ha⟩ :=
    MicroOp.run_cases h
  case inr.inr.inl =>
    cases f with
    | tp => exact .inr rfl
    | np => exact .inl rfl
  case inr.inr.inr.inr.inr.inr =>
    obtain ⟨m, r, rfl⟩ := Accessor.run_ok ha
    exact .inl rfl
  all_goals exact .inl (by simp)

/-- Only LIFESET writes LIFE. -/
theorem MicroOp.run_life {op : MicroOp} {s t : State} (h : op.run s = .ok t) :
    t.life = s.life ∨ (op = .lifeset ∧ t.life = .ready) := by
  obtain ⟨l, b, -, rfl⟩ | ⟨-, rfl⟩ | ⟨f, b, -, rfl⟩ | ⟨b, -, rfl⟩ | ⟨b, -, rfl⟩ | ⟨rfl, rfl⟩ | ⟨a, -, ha⟩ :=
    MicroOp.run_cases h
  case inr.inr.inr.inr.inr.inl => exact .inr ⟨rfl, rfl⟩
  case inr.inr.inr.inr.inr.inr =>
    obtain ⟨m, r, rfl⟩ := Accessor.run_ok ha
    exact .inl rfl
  all_goals exact .inl (by simp)

/-- Only GSET writes GSCLK_RUN. -/
theorem MicroOp.run_gsclkRun {op : MicroOp} {s t : State} (h : op.run s = .ok t) :
    t.gsclkRun = s.gsclkRun ∨ op = .gset t.gsclkRun := by
  obtain ⟨l, b, -, rfl⟩ | ⟨-, rfl⟩ | ⟨f, b, -, rfl⟩ | ⟨b, rfl, rfl⟩ | ⟨b, -, rfl⟩ | ⟨-, rfl⟩ | ⟨a, -, ha⟩ :=
    MicroOp.run_cases h
  case inr.inr.inr.inl => exact .inr rfl
  case inr.inr.inr.inr.inr.inr =>
    obtain ⟨m, r, rfl⟩ := Accessor.run_ok ha
    exact .inl rfl
  all_goals exact .inl (by simp)

/-! ### A firing (R151 to R155) -/

@[simp] theorem State.isr_tp (s : State) : s.isr.tp = false := by
  cases htp : s.tp <;> cases hnp : s.np <;>
    simp [State.isr, State.isrEntry, State.isrLatch, State.isrExtraPulse, State.isrExit, htp, hnp]

@[simp] theorem State.isr_gsclkRun (s : State) : s.isr.gsclkRun = true := rfl

@[simp] theorem State.setFlag_line (f : Flag) (b : Bool) (l : Line) (s : State) :
    (s.setFlag f b).line l = s.line l := by cases f <;> cases l <;> rfl

/-- R152, R153: a firing moves no line but BLANK and the lines it pulses. -/
theorem State.isr_line {s : State} {l : Line} (hl : l ≠ .blank) :
    s.isr.line l =
      if s.tp = true ∧ (l = .xlat ∨ (l = .sclk ∧ s.np = true)) then .low else s.line l := by
  cases htp : s.tp <;> cases hnp : s.np <;> cases l <;>
    simp [State.isr, State.isrEntry, State.isrLatch, State.isrExtraPulse, State.isrExit, htp, hnp,
      State.driveLine_line, State.pulse_line] at hl ⊢

/-- A firing leaves a line that is at 0 where it pulses it. -/
theorem State.isr_line_of_low {s : State} {l : Line} (hl : l ≠ .blank)
    (hlow : s.tp = true → l.rests → s.line l = .low) : s.isr.line l = s.line l := by
  rw [State.isr_line hl]
  split
  · rename_i h
    obtain ⟨htp, hpulsed⟩ := h
    exact (hlow htp (hpulsed.elim (fun hx => .inr (.inl hx)) fun hs => .inl hs.1)).symm
  · rfl

/-- R151: the entry of a firing. -/
theorem State.isrEntry_eq (s : State) : s.isrEntry = { s with
    blank := .high
    gsclkRun := false
    trace := s.trace ++ [.set .blank true, .gsclk false] } := by
  simp [State.isrEntry, State.driveGsclk, State.driveLine, State.observe, State.setLine, State.emit, Level.ofBit]

/-- R154: the exit of a firing. -/
theorem State.isrExit_eq (s : State) : s.isrExit = { s with
    blank := .low
    gsclkRun := true
    trace := s.trace ++ [.set .blank false, .gsclk true] } := by
  simp [State.isrExit, State.driveGsclk, State.driveLine, State.observe, State.setLine, State.emit, Level.ofBit]

/-- Settles O30: both ends write BLANK, which the chain does not react to, and GSCLK_RUN. -/
theorem isrEntryAndExit : Obligations.IsrEntryAndExit := fun s => ⟨s.isrEntry_eq, s.isrExit_eq⟩

/-- R152: with TP = 0 the latch decision does nothing. -/
theorem State.isrLatch_of_not_tp {s : State} (htp : s.tp = false) : s.isrLatch = s := by
  simp [State.isrLatch, htp]

/-- R157: a firing with TP = 0 moves BLANK, the grayscale clock and the trace alone. -/
theorem State.isr_of_not_tp {s : State} (htp : s.tp = false) :
    s.isr = { s with
      blank := .low
      gsclkRun := true
      trace := s.trace ++ [.set .blank true, .gsclk false, .set .blank false, .gsclk true] } := by
  have hlatch : s.isrEntry.isrLatch = s.isrEntry := State.isrLatch_of_not_tp (by rw [State.isrEntry_eq]; exact htp)
  rw [State.isr, hlatch, State.isrExit_eq, State.isrEntry_eq]
  simp

/-- Settles O55: such a firing is its entry and its exit. -/
theorem idleStability : Obligations.IdleStability := fun _ => State.isr_of_not_tp

/-! ### The registers keep their lengths (R200) -/

/-- The chain's registers have the lengths of R200. -/
def State.LiveLengths (s : State) : Prop := s.liveGs.length = s.cfg.frameBits ∧ s.liveDc.length = s.cfg.dcBits

theorem length_freeBits (d n : Nat) : (freeBits d n).length = n := by simp [freeBits]

/-- A latch commits as many bits as the register holds. -/
theorem State.length_latched (n : Nat) (s : State) : (s.latched n).length = n := by
  unfold State.latched
  split
  · exact length_freeBits _ n
  · rw [lastBits, List.length_drop]; omega

theorem State.LiveLengths.observe {s : State} (l : Line) (b : Bool) (h : s.LiveLengths) :
    (s.observe l b).LiveLengths := by
  obtain ⟨hgs, hdc⟩ := h
  unfold State.observe
  split
  · split
    · exact ⟨by simpa using hgs, by simpa using hdc⟩
    · exact ⟨hgs, hdc⟩
  · split
    · unfold State.latch
      split
      · exact ⟨State.length_latched _ s, hdc⟩
      · exact ⟨hgs, State.length_latched _ s⟩
      · exact ⟨hgs, hdc⟩
    · exact ⟨hgs, hdc⟩
  · exact ⟨hgs, hdc⟩

theorem keptByWrites_liveLengths : KeptByWrites State.LiveLengths where
  line s l b h := by
    obtain ⟨hgs, hdc⟩ := h.observe l b
    exact ⟨by simpa using hgs, by simpa using hdc⟩
  gsclk _ _ h := h
  flag s f b h := by cases f <;> exact h
  ie _ _ h := h
  ready _ h := h
  accessor a s t h hrun := by obtain ⟨m, r, rfl⟩ := Accessor.run_ok hrun; exact h
  bookkeeping _ _ _ _ _ h := h

end Sys2Proof.Machine

/-! PROOFS. The invariant: it holds at reset, and every step keeps it. -/

namespace Sys2Proof.Machine

/-! ### The invariant at reset (R39) -/

/-- A buffer that lists nothing has zero fields. -/
theorem State.lowBitsZero_of_nil {s : State} (h : s.fb = []) : s.LowBitsZero := by
  intro c f hf
  rw [State.fieldRead_of_lt (State.fieldRead_ok hf), h] at hf
  have hzero : fieldOfBytes c (Memory.read [] (fieldByte c)) (Memory.read [] (fieldByte c + 1)) = 0 := by
    unfold fieldOfBytes Memory.read Memory.unlisted
    split <;> decide
  rw [← Except.ok.inj hf, hzero]
  exact Nat.zero_mod _

theorem State.inv_initial {c : Config} (program : List Word) (h : c.legal = true) :
    ({ State.initial c with host := program } : State).Inv where
  cfgLegal := h
  fbOk := ⟨rfl, rfl⟩
  lowBits := State.lowBitsZero_of_nil rfl
  respSmall _ hv := absurd hv List.not_mem_nil
  position _ _ hown := by cases hown
  beforeInit _ := ⟨rfl, rfl⟩
  fresh _ _ := ⟨rfl, rfl, rfl, rfl, rfl, rfl, rfl, rfl, rfl, rfl⟩
  lines l hl := by obtain rfl | rfl | rfl := hl <;> rfl
  driven hd := by obtain hd | ⟨u, hu, -⟩ := hd <;> cases ‹_ = _›
  interrupt := ⟨fun hie => (by cases hie), fun hd => by obtain hd | ⟨u, hu, -⟩ := hd <;> cases ‹_ = _›⟩
  clockRuns hd := by obtain hd | ⟨u, hu, -⟩ := hd <;> cases ‹_ = _›
  exclusion htp := by cases htp
  sent _ _ hown := by cases hown
  liveLengths := by simp [State.initial, freeBits]

/-- Settles O39: at reset nothing is listed, driven, set or in progress. -/
theorem invariantHoldsAtReset : Obligations.InvariantHoldsAtReset :=
  ⟨fun _ program h => State.inv_initial program h, State.inv_initial [] rfl⟩

/-! ### Where the owner stands -/

/-- The low bits of the fields are a matter of FB and the configuration. -/
theorem State.LowBitsZero.congr {s t : State} (h : s.LowBitsZero) (hfb : t.fb = s.fb) (hcfg : t.cfg = s.cfg) :
    t.LowBitsZero := by
  intro c f hf
  have hread : s.fieldRead c = .ok f := by
    have hc := State.fieldRead_ok hf
    rw [State.fieldRead_of_lt hc, hfb] at hf
    rw [State.fieldRead_of_lt (hcfg ▸ hc), hf]
  rw [hcfg]
  exact h c f hread

theorem Line.rests.ne_blank {l : Line} (h : l.rests) : l ≠ .blank := by
  obtain rfl | rfl | rfl := h <;> simp

theorem State.done_of_busy {s : State} {i : Instr} {u : Nat} (h : s.own = .busy i u) :
    s.done = (programOf s.cfg.numDrivers i).take u := by
  simp only [State.done, h]

theorem State.nextOp_of_busy {s : State} {i : Instr} {u : Nat} (h : s.own = .busy i u) :
    s.nextOp = (programOf s.cfg.numDrivers i)[u]? := by
  simp only [State.nextOp, h]

/-- R182: INIT is accepted before initialisation, every other command after it. -/
theorem State.life_of_accepts {s : State} {i : Instr} (h : s.accepts i = true) :
    (i = .init ∧ s.life = .uninit) ∨ (i ≠ .init ∧ s.life = .ready) := by
  cases i <;> simp_all [State.accepts]

/-- Where a command begins SCLK, XLAT and VPRG stand as LIFE says. -/
theorem startLevel_of_accepts {s : State} {i : Instr} (h : s.accepts i = true) :
    startLevel i = if s.life = .ready then .low else .undriven := by
  obtain ⟨rfl, hlife⟩ | ⟨hi, hlife⟩ := State.life_of_accepts h
  · simp [startLevel, hlife]
  · cases i <;> simp_all [startLevel]

/-- The accepted commands depend on LIFE and the configuration alone. -/
theorem State.accepts_congr {s t : State} (i : Instr) (hlife : t.life = s.life) (hcfg : t.cfg = s.cfg) :
    t.accepts i = s.accepts i := by
  cases i <;> simp only [State.accepts, hlife, hcfg]

/-- R67: the positions at which a frame may be pending. -/
theorem State.quiet_cases {s : State} {i : Instr} {u : Nat} (hown : s.own = .busy i u) (h : s.quiet = true) :
    s.nextOp = some .waitTp0 ∨ (∃ a, s.nextOp = some (.acc a)) ∨ s.nextOp = some .lifeset := by
  simp only [State.quiet, hown] at h
  split at h
  · exact .inl ‹_›
  · exact .inr (.inl ⟨_, ‹_›⟩)
  · exact .inr (.inr ‹_›)
  · cases h

/-- A line driven before a micro-operation is driven after it. -/
theorem MicroOp.run_driven {op : MicroOp} {s v : State} (hrun : op.run s = .ok v) (l : Line)
    (hl : s.line l ≠ .undriven) : v.line l ≠ .undriven :=
  ((keptByWrites_notUndone s).run ⟨fun _ hl => hl, fun hl => hl, List.prefix_rfl, List.prefix_rfl, List.prefix_rfl⟩
    hrun).line l hl

/-- The owner's position as an operation leaves it. -/
theorem ownAfter_cases {i : Instr} {len u : Nat} (hu : u < len) :
    (u + 1 < len ∧ ownAfter i len u = .busy i (u + 1)) ∨ (u + 1 = len ∧ ownAfter i len u = .idle) := by
  unfold ownAfter
  split
  · exact .inl ⟨‹_›, rfl⟩
  · exact .inr ⟨by omega, rfl⟩

section
variable {s : State} (h : s.Inv)
include h

/-- The levels of SCLK, XLAT and VPRG while a command is in progress. -/
theorem State.Inv.line_eq {i : Instr} {u : Nat} (hown : s.own = .busy i u) {l : Line} (hl : l.rests) :
    s.line l = levelAfter s.fb l (startLevel i) ((programOf s.cfg.numDrivers i).take u) := by
  rw [startLevel_of_accepts (h.position i u hown).1, ← State.done_of_busy hown]
  exact h.lines l hl

/-- With a frame pending the owner has begun nothing since INIT, or is at INIT's last micro-step. -/
theorem State.Inv.tp_cases (htp : s.tp = true) :
    (s.life = .ready ∧ s.done = []) ∨ s.own = .busy .init (864 * s.cfg.numDrivers + 16) := by
  obtain ⟨hquiet, hlife⟩ := h.exclusion htp
  cases hown : s.own with
  | idle =>
    refine .inl ⟨hlife.resolve_right ?_, by simp only [State.done, hown]⟩
    simp [State.nextOp, hown]
  | busy i u =>
    have hnext := State.nextOp_of_busy hown
    obtain hop | ⟨a, hop⟩ | hop := State.quiet_cases hown hquiet
    · have hready : s.life = .ready := hlife.resolve_right (by simp [hop])
      obtain rfl | rfl := programOf_wait (hnext.symm.trans hop)
      · have := (h.position .init u hown).1
        simp [State.accepts, hready] at this
      · exact .inl ⟨hready, by rw [State.done_of_busy hown, List.take_zero]⟩
    · obtain ⟨-, rfl⟩ := programOf_acc (hnext.symm.trans hop)
      exact .inl ⟨hlife.resolve_right (by simp [hop]), by rw [State.done_of_busy hown, List.take_zero]⟩
    · obtain ⟨rfl, rfl⟩ := programOf_lifeset (hnext.symm.trans hop)
      exact .inr rfl

/-- R67: with a frame pending SCLK, XLAT and VPRG are 0. -/
theorem State.Inv.line_low_of_tp (htp : s.tp = true) {l : Line} (hl : l.rests) : s.line l = .low := by
  obtain ⟨hlife, hdone⟩ | hown := h.tp_cases htp
  · rw [h.lines l hl, hdone, if_pos hlife]; rfl
  · have hend := levelAfter_programOf s.fb s.cfg.numDrivers .init hl
    rw [programOf, ← List.take_of_length_le (Nat.le_of_eq (length_initProgram s.cfg.numDrivers)),
      levelAfter_take_succ _ _ _ (initProgram_last s.cfg.numDrivers)] at hend
    rw [h.line_eq hown hl]
    exact hend

/-! ### The steps that perform no micro-operation -/

/-- The host's words, the tick and a fault are no part of the invariant. -/
theorem State.Inv.bookkeeping (f : Option FaultRecord) (w : List Word) (n : Nat) :
    ({ s with fault := f, host := w, tick := n } : State).Inv :=
  ⟨h.cfgLegal, ⟨h.fbOk.canonical, h.fbOk.within⟩, h.lowBits, h.respSmall, h.position, h.beforeInit, h.fresh, h.lines, h.driven, h.interrupt,
    h.clockRuns, h.exclusion, h.sent, h.liveLengths⟩

/-- An accepted command starts where it finds the lines. -/
theorem State.Inv.accepting {i : Instr} (hown : s.own = .idle) (hacc : s.accepts i = true) (w : List Word) (n : Nat) :
    ({ s with host := w, own := .busy i 0, tick := n } : State).Inv := by
  have hdone : s.done = [] := by simp only [State.done, hown]
  have hnotInit : ∀ k, ¬ s.initFrom k := fun k ⟨u, hu, _⟩ => by rw [hown] at hu; cases hu
  have hnotFrom : ∀ k, 0 < k → ¬ ({ s with host := w, own := .busy i 0, tick := n } : State).initFrom k := by
    rintro k hk ⟨u, hu, hle⟩
    cases hu
    omega
  refine ⟨h.cfgLegal, ⟨h.fbOk.canonical, h.fbOk.within⟩, h.lowBits, h.respSmall, ?_, h.beforeInit,
    fun _ hidle => Own.noConfusion hidle, fun l hl => ?_, fun hd => h.driven (.inl (hd.resolve_right (hnotFrom 5 (by omega)))), ?_,
    fun hd => h.clockRuns (.inl (hd.resolve_right (hnotFrom _ (by omega)))), fun htp => ?_, fun j u hbusy _ => ?_,
    h.liveLengths⟩
  · rintro j u hbusy
    cases hbusy
    refine ⟨(State.accepts_congr i rfl rfl).trans hacc, ?_⟩
    cases i with
    | init => exact Nat.lt_of_lt_of_eq (by omega) (length_initProgram _).symm
    | display => exact Nat.lt_of_lt_of_eq (by omega) (length_displayProgram _).symm
    | setglobaldc v => exact Nat.lt_of_lt_of_eq (by omega) (length_dcProgram _ v).symm
    | clear | setled | getled => exact Nat.one_pos
  · have := h.lines l hl
    rw [hdone] at this
    exact this
  · constructor
    · exact fun hie => .inl ((h.interrupt.mp hie).resolve_right (hnotInit _))
    · exact fun hd => h.interrupt.mpr (.inl (hd.resolve_right (hnotFrom _ (by omega))))
  · have hready : s.life = .ready := (h.exclusion htp).2.resolve_right (by simp [State.nextOp, hown])
    refine ⟨?_, .inl hready⟩
    obtain ⟨rfl, huninit⟩ | ⟨hi, -⟩ := State.life_of_accepts hacc
    · rw [hready] at huninit; cases huninit
    · cases i with
      | init => exact absurd rfl hi
      | _ => rfl
  · cases hbusy
    exact ⟨s.sin, s.sr, rfl, by simp [State.done, sentBits]⟩

/-- A firing moves BLANK, the clock, the chain and the flags, and the lines it pulses were at 0. -/
theorem State.Inv.isr (hie : s.ie = true) : s.isr.Inv := by
  have hline : ∀ {l : Line}, l ≠ .blank → s.isr.line l = s.line l := fun hl =>
    State.isr_line_of_low hl fun htp hrests => h.line_low_of_tp htp hrests
  have hdone : s.isr.done = s.done := by simp only [State.done, State.isr_own, State.isr_cfg]
  have hnext : s.isr.nextOp = s.nextOp := by simp only [State.nextOp, State.isr_own, State.isr_cfg]
  have hfrom : ∀ {k}, s.isr.initFrom k → s.initFrom k := fun ⟨u, hu, hle⟩ => ⟨u, by simpa using hu, hle⟩
  have hfrom' : ∀ {k}, s.initFrom k → s.isr.initFrom k := fun ⟨u, hu, hle⟩ => ⟨u, by simpa using hu, hle⟩
  refine ⟨by simpa using h.cfgLegal, keptByWrites_fbOk.isr h.fbOk, h.lowBits.congr (by simp) (by simp),
    by simpa using h.respSmall, fun i u hown => ?_, by simpa using h.beforeInit, fun huninit hidle => ?_,
    fun l hl => ?_, fun hd => ⟨?_, fun hblank => by cases hblank⟩, ?_, fun _ => rfl,
    fun htp => by simp at htp, fun i u hown hlast => ?_, keptByWrites_liveLengths.isr h.liveLengths⟩
  · obtain ⟨hacc, hu⟩ := h.position i u (by simpa using hown)
    exact ⟨(State.accepts_congr i (by simp) (by simp)).trans hacc, by simpa using hu⟩
  · obtain hready | ⟨u, hu, -⟩ := h.interrupt.mp hie
    · rw [State.isr_life, hready] at huninit; cases huninit
    · rw [State.isr_own, hu] at hidle; cases hidle
  · rw [hline (Line.rests.ne_blank hl), hdone, State.isr_fb, State.isr_life]
    exact h.lines l hl
  · have hsin : s.isr.sin = s.sin := hline (l := .sin) (by simp)
    rw [hsin]
    exact (h.driven (hd.imp (by simp) hfrom)).1
  · rw [State.isr_ie, State.isr_life, State.isr_cfg]
    exact h.interrupt.trans ⟨fun hd => hd.imp_right hfrom', fun hd => hd.imp_right hfrom⟩
  · rw [State.isr_own] at hown
    rw [hnext] at hlast
    rw [hdone, State.isr_fb]
    obtain ⟨v, taken, hsin, hsr⟩ := h.sent i u hown hlast
    cases htp : s.tp with
    | false => exact ⟨v, taken, by rw [State.isr_of_not_tp htp]; exact ⟨hsin, hsr⟩⟩
    | true =>
      obtain ⟨-, hnone⟩ | hend := h.tp_cases htp
      · rw [hnone]
        exact ⟨_, s.isr.sr, rfl, by simp [sentBits]⟩
      · refine absurd ?_ hlast
        rw [State.nextOp_of_busy hend]
        exact initProgram_last _

/-! ### A micro-operation performed -/

variable {i : Instr} {u : Nat} {op : MicroOp} (hown : s.own = .busy i u)
  (hop : (programOf s.cfg.numDrivers i)[u]? = some op)
include hown hop

/-- With a frame pending an operation that does not hold is an accessor's, or ends INIT. -/
theorem State.Inv.op_of_tp (htp : s.tp = true) (hwait : op = .waitTp0 → s.tp = false) :
    (∃ a : Accessor, op = .acc a) ∨ op = .lifeset := by
  have hnext := (State.nextOp_of_busy hown).trans hop
  obtain hw | ⟨a, ha⟩ | hlast := State.quiet_cases hown (h.exclusion htp).1
  · rw [hnext] at hw
    exact absurd (hwait (Option.some.inj hw)) (by simp [htp])
  · rw [hnext] at ha
    exact .inl ⟨a, Option.some.inj ha⟩
  · rw [hnext] at hlast
    exact .inr (Option.some.inj hlast)

variable {v : State} (hrun : op.run s = .ok v)
include hrun

/-- The lines after a micro-operation are where the operations done so far leave them. -/
theorem State.Inv.run_line {l : Line} (hl : l.rests) :
    v.line l = levelAfter s.fb l (startLevel i) ((programOf s.cfg.numDrivers i).take (u + 1)) := by
  rw [MicroOp.run_line hrun, levelAfter_take_succ _ _ _ hop, h.line_eq hown hl]

/-- SIN and SR after a micro-operation are what the operations done so far make of them. -/
theorem State.Inv.run_sent (hlast : op ≠ .lifeset) :
    ∃ w taken, v.sin = levelAfter s.fb .sin w ((programOf s.cfg.numDrivers i).take (u + 1)) ∧
      v.sr = taken ++ sentBits s.fb w ((programOf s.cfg.numDrivers i).take (u + 1)) := by
  obtain ⟨w, taken, hsin, hsr⟩ := h.sent i u hown (by rw [State.nextOp_of_busy hown, hop]; simpa using hlast)
  rw [State.done_of_busy hown] at hsin hsr
  refine ⟨w, taken, ?_, ?_⟩
  · rw [levelAfter_take_succ _ _ _ hop, ← hsin]
    exact MicroOp.run_line hrun .sin
  · rw [sentBits_take_succ _ _ hop, ← hsin, ← List.append_assoc, ← hsr]
    refine MicroOp.run_sr hrun ?_
    rintro rfl
    obtain ⟨hsclk, hbit⟩ := levelAfter_before_rise hop s.fb w
    exact ⟨(h.line_eq hown (.inl rfl)).trans hsclk, hsin ▸ hbit⟩

/-- Once INIT has configured its pins SIN and BLANK are driven (R171). -/
theorem State.Inv.run_driven (hd : s.life = .ready ∨ (i = .init ∧ 4 ≤ u)) :
    v.sin ≠ .undriven ∧ v.blank ≠ .undriven := by
  by_cases hpins : i = .init ∧ u = 4
  · obtain ⟨rfl, rfl⟩ := hpins
    obtain ⟨w, taken, hsin, -⟩ := h.run_sent hown hop hrun (by rintro rfl; cases hop)
    cases hop
    cases hrun
    exact ⟨by rw [hsin]; simp [programOf, initProgram, initPins, levelAfter, MicroOp.levelAfter, Level.ofBit],
      by rw [State.driveLine_blank]; simp [Level.ofBit]⟩
  · have hdriven := h.driven (hd.imp_right fun ⟨hi, hu⟩ => ⟨u, by rw [hown, hi], by
      have : u ≠ 4 := fun h4 => hpins ⟨hi, h4⟩
      omega⟩)
    exact ⟨MicroOp.run_driven hrun .sin hdriven.1, MicroOp.run_driven hrun .blank hdriven.2⟩

/-- After a micro-operation IE is set once INIT's interrupt enable is done (R174). -/
theorem State.Inv.run_ie :
    v.ie = true ↔ s.life = .ready ∨ (i = .init ∧ 288 * s.cfg.numDrivers + 12 ≤ u) := by
  by_cases henable : op = .ieset true
  · subst henable
    obtain ⟨-, rfl, rfl⟩ := programOf_ieset hop
    cases hrun
    simp
  · have hie : v.ie = s.ie := (MicroOp.run_ie hrun).resolve_right fun hset => by
      rw [hset] at hop
      exact henable (hset.trans (by rw [(programOf_ieset hop).1]))
    have hne : ¬ (i = .init ∧ u = 288 * s.cfg.numDrivers + 12) := by
      rintro ⟨rfl, rfl⟩
      exact henable (Option.some.inj (hop.symm.trans (initProgram_interrupt _)))
    rw [hie, h.interrupt]
    refine or_congr_right ⟨?_, ?_⟩
    · rintro ⟨k, hk, hle⟩
      rw [hown] at hk
      cases hk
      exact ⟨rfl, by omega⟩
    · rintro ⟨rfl, hle⟩
      have : u ≠ 288 * s.cfg.numDrivers + 12 := fun h12 => hne ⟨rfl, h12⟩
      exact ⟨u, hown, by omega⟩

/-- After a micro-operation the grayscale clock runs once INIT's timers are done (R173). -/
theorem State.Inv.run_clock (hd : s.life = .ready ∨ (i = .init ∧ 288 * s.cfg.numDrivers + 11 ≤ u)) :
    v.gsclkRun = true := by
  obtain hsame | hset := MicroOp.run_gsclkRun hrun
  · by_cases htimers : i = .init ∧ u = 288 * s.cfg.numDrivers + 11
    · obtain ⟨rfl, rfl⟩ := htimers
      cases hop.symm.trans (initProgram_timers _)
      cases hrun
      rfl
    · rw [hsame]
      exact h.clockRuns (hd.imp_right fun ⟨hi, hu⟩ => ⟨u, by rw [hown, hi], by
        have : u ≠ 288 * s.cfg.numDrivers + 11 := fun h11 => htimers ⟨hi, h11⟩
        omega⟩)
  · rw [hset] at hop
    exact (programOf_gset hop).1

/-- A command that goes on keeps the invariant. -/
theorem State.Inv.continuing (hwait : op = .waitTp0 → s.tp = false)
    (hlen : u + 1 < (programOf s.cfg.numDrivers i).length) (n : Nat) :
    ({ v with own := .busy i (u + 1), tick := n } : State).Inv := by
  have hacc : ∀ a : Accessor, op ≠ .acc a := by
    rintro a rfl
    obtain ⟨rfl, rfl⟩ := programOf_acc hop
    rw [programOf_command] at hlen
    simp at hlen
  have hlifeset : op ≠ .lifeset := by
    rintro rfl
    obtain ⟨rfl, rfl⟩ := programOf_lifeset hop
    rw [programOf, length_initProgram] at hlen
    omega
  obtain ⟨hcfg, -, -, -, -⟩ := MicroOp.run_ok hrun
  obtain ⟨hfb, hresp⟩ := (MicroOp.run_fb_resp hrun).resolve_right fun ⟨a, ha⟩ => hacc a ha
  have hlife : v.life = s.life := (MicroOp.run_life hrun).resolve_right fun hset => hlifeset hset.1
  have hposition := h.position i u hown
  have hdone : ({ v with own := .busy i (u + 1), tick := n } : State).done =
      (programOf s.cfg.numDrivers i).take (u + 1) := by rw [State.done_of_busy rfl, hcfg]
  have hfrom : ∀ k, ({ v with own := .busy i (u + 1), tick := n } : State).initFrom (k + 1) ↔ i = .init ∧ k ≤ u := by
    refine fun k => ⟨?_, ?_⟩
    · rintro ⟨w, hw, hle⟩
      cases hw
      exact ⟨rfl, by omega⟩
    · rintro ⟨rfl, hle⟩
      exact ⟨u + 1, rfl, by omega⟩
  constructor
  case cfgLegal => exact hcfg ▸ h.cfgLegal
  case fbOk => exact keptByWrites_fbOk.bookkeeping v _ v.fault v.host n (keptByWrites_fbOk.run h.fbOk hrun)
  case lowBits => exact h.lowBits.congr hfb hcfg
  case respSmall => rw [hresp, hcfg]; exact h.respSmall
  case position =>
    rintro j w hw
    cases hw
    exact ⟨(State.accepts_congr i hlife hcfg).trans hposition.1, hcfg ▸ hlen⟩
  case beforeInit => rw [hlife, hfb, hresp]; exact h.beforeInit
  case fresh => exact fun _ hidle => Own.noConfusion hidle
  case lines =>
    intro l hl
    rw [hdone, hfb, hlife, ← startLevel_of_accepts hposition.1]
    exact h.run_line hown hop hrun hl
  case driven =>
    rw [hfrom 4, hlife]
    exact h.run_driven hown hop (v := v) hrun
  case interrupt =>
    rw [hfrom, hlife, hcfg]
    exact h.run_ie hown hop (v := v) hrun
  case clockRuns =>
    rw [hfrom, hlife, hcfg]
    exact h.run_clock hown hop (v := v) hrun
  case exclusion =>
    intro htp
    have hnot : s.tp = false := by
      by_contra hpending
      obtain ⟨a, ha⟩ | hlast := h.op_of_tp hown hop (eq_true_of_ne_false hpending) hwait
      · exact hacc a ha
      · exact hlifeset hlast
    have hset : op = .fset .tp v.tp := (MicroOp.run_tp hrun).resolve_left fun hsame => by
      rw [hnot] at hsame
      exact absurd (htp.symm.trans hsame) (by simp)
    rw [hset] at hop
    obtain ⟨-, base, hpart, rfl⟩ := programOf_fset_tp hop
    cases hpart with
    | display => rw [programOf, length_displayProgram] at hlen; omega
    | init =>
      have hnext : ({ v with
          own := .busy .init (288 * s.cfg.numDrivers + 13 + (576 * s.cfg.numDrivers + 2) + 1), tick := n } :
          State).nextOp = some .lifeset := by
        rw [State.nextOp_of_busy rfl, hcfg, show 288 * s.cfg.numDrivers + 13 + (576 * s.cfg.numDrivers + 2) + 1 =
          864 * s.cfg.numDrivers + 16 by omega]
        exact initProgram_last _
      exact ⟨by simp only [State.quiet, hnext], .inr hnext⟩
  case sent =>
    rintro j w hw -
    cases hw
    rw [hdone, hfb]
    exact h.run_sent hown hop (v := v) hrun hlifeset
  case liveLengths =>
    have hlengths : v.LiveLengths := keptByWrites_liveLengths.run h.liveLengths hrun
    exact hlengths

end

/-! ### The end of a command -/

/-- R103: every value GETLED appends is an intensity. -/
theorem Accessor.run_respSmall {a : Accessor} {s v : State} (h : s.Inv) (hrun : a.run s = .ok v) :
    ∀ x ∈ v.resp, x.toNat < 2 ^ s.cfg.resolutionBits := by
  cases a with
  | clear => rw [State.clearBody_ok hrun]; exact h.respSmall
  | setled c x => obtain ⟨-, rfl⟩ := State.fieldWrite_ok hrun; exact h.respSmall
  | getled c =>
    obtain ⟨f, -, rfl⟩ := State.getledBody_ok hrun
    intro x hx
    obtain hold | hnew := List.mem_append.mp hx
    · exact h.respSmall x hold
    · rw [List.mem_singleton.mp hnew, toNat_intensityOf]
      exact Nat.div_lt_of_lt_mul (by rw [Nat.mul_comm, Config.scale_mul h.cfgLegal]; exact f.isLt)

/-- R22: what SETLED stores is scaled, and CLEAR stores zeros. -/
theorem Accessor.run_lowBits {a : Accessor} {s v : State} (h : s.Inv) (hacc : s.accepts a.command = true)
    (hrun : a.run s = .ok v) : v.LowBitsZero := by
  cases a with
  | clear =>
    cases (State.clearBody_eq h.fbOk).symm.trans hrun
    exact State.lowBitsZero_of_nil rfl
  | getled c =>
    obtain ⟨f, -, rfl⟩ := State.getledBody_ok hrun
    exact h.lowBits.congr rfl rfl
  | setled c x =>
    obtain ⟨-, rfl⟩ := State.fieldWrite_ok hrun
    simp only [Accessor.command, State.accepts, Bool.and_eq_true, decide_eq_true_eq] at hacc
    obtain ⟨⟨-, hc⟩, hx⟩ := hacc
    intro d f hf
    by_cases hd : c = d
    · subst d
      rw [State.fieldRead_fieldWritten _ h.fbOk.canonical hc] at hf
      cases hf
      exact (storedValueScales s.cfg x h.cfgLegal hx).2.1
    · have hdc := State.fieldRead_ok (s := { s with fb := fieldWritten s.fb c (storedValue s.cfg x) }) hf
      rw [State.fieldRead_fieldWritten_ne _ h.fbOk.canonical hd hdc] at hf
      exact h.lowBits d f hf

section
variable {s : State} (h : s.Inv) {i : Instr} {u : Nat} (hown : s.own = .busy i u)
  (hlen : u + 1 = (programOf s.cfg.numDrivers i).length)
include h hown hlen

/-- A command that ends is past all of INIT's parts, or was never INIT. -/
theorem State.Inv.ready_or_past {k : Nat} (hk : k ≤ 864 * s.cfg.numDrivers + 16) :
    s.life = .ready ∨ (i = .init ∧ k ≤ u) := by
  obtain ⟨rfl, -⟩ | ⟨-, hready⟩ := State.life_of_accepts (h.position i u hown).1
  · rw [programOf, length_initProgram] at hlen
    exact .inr ⟨rfl, by omega⟩
  · exact .inl hready

variable {v : State} {op : MicroOp} (hop : (programOf s.cfg.numDrivers i)[u]? = some op) (hrun : op.run s = .ok v)
include hop hrun

/-- Every command ends in a block that is READY (R176). -/
theorem State.Inv.ready_at_end : v.life = .ready := by
  obtain ⟨rfl, -⟩ | ⟨-, hready⟩ := State.life_of_accepts (h.position i u hown).1
  · rw [programOf, length_initProgram] at hlen
    cases (show u = 864 * s.cfg.numDrivers + 16 by omega)
    cases hop.symm.trans (initProgram_last _)
    cases hrun
    rfl
  · obtain hsame | ⟨-, hset⟩ := MicroOp.run_life hrun
    · rw [hsame, hready]
    · exact hset

/-- A command that ends keeps the invariant. -/
theorem State.Inv.finishing (n : Nat) : ({ v with own := .idle, tick := n } : State).Inv := by
  obtain ⟨hcfg, -, -, -, -⟩ := MicroOp.run_ok hrun
  have hready := h.ready_at_end hown hlen hop hrun
  have hpast : ∀ {k}, k ≤ 864 * s.cfg.numDrivers + 16 → s.life = .ready ∨ (i = .init ∧ k ≤ u) :=
    fun hk => h.ready_or_past hown hlen hk
  have huninit : ∀ {P : Prop}, v.life = .uninit → P := fun hu => by rw [hready] at hu; cases hu
  constructor
  case cfgLegal => exact hcfg ▸ h.cfgLegal
  case fbOk => exact keptByWrites_fbOk.bookkeeping v _ v.fault v.host n (keptByWrites_fbOk.run h.fbOk hrun)
  case lowBits =>
    obtain ⟨hfb, -⟩ | ⟨a, rfl⟩ := MicroOp.run_fb_resp hrun
    · exact h.lowBits.congr hfb hcfg
    · obtain ⟨rfl, rfl⟩ := programOf_acc hop
      exact (Accessor.run_lowBits h (h.position _ _ hown).1 hrun).congr rfl rfl
  case respSmall =>
    rw [hcfg]
    obtain ⟨-, hresp⟩ | ⟨a, rfl⟩ := MicroOp.run_fb_resp hrun
    · rw [hresp]; exact h.respSmall
    · exact Accessor.run_respSmall (v := v) h hrun
  case position => exact fun _ _ hidle => Own.noConfusion hidle
  case beforeInit => exact huninit
  case fresh => exact fun hu => huninit hu
  case lines =>
    intro l hl
    have hend := h.run_line hown hop hrun hl
    rw [hlen, List.take_length, levelAfter_programOf _ _ _ hl] at hend
    rw [if_pos hready]
    exact hend
  case driven => exact fun _ => h.run_driven hown hop (v := v) hrun (hpast (by omega))
  case interrupt => exact ⟨fun _ => .inl hready, fun _ => (h.run_ie hown hop (v := v) hrun).mpr (hpast (by omega))⟩
  case clockRuns => exact fun _ => h.run_clock hown hop (v := v) hrun (hpast (by omega))
  case exclusion => exact fun _ => ⟨rfl, .inl hready⟩
  case sent => exact fun _ _ hidle => Own.noConfusion hidle
  case liveLengths =>
    have hlengths : v.LiveLengths := keptByWrites_liveLengths.run h.liveLengths hrun
    exact hlengths

end

/-- Every step of either agent keeps the invariant. -/
theorem State.Inv.stepWith {fires : Bool} {s t : State} (h : s.Inv) (hstep : stepWith fires s = .next t) : t.Inv := by
  obtain ⟨-, hs⟩ := steps_of_stepWith hstep
  cases hs with
  | firing hie => exact (h.bookkeeping s.fault s.host (s.tick + 1)).isr hie
  | noWord | holding => exact h.bookkeeping s.fault s.host (s.tick + 1)
  | faulting w rest code => exact h.bookkeeping (some ⟨code, w⟩) rest (s.tick + 1)
  | accepting w rest i _ hown _ _ hacc => exact h.accepting hown hacc rest (s.tick + 1)
  | performing i u op v _ hown hop hwait hrun =>
    obtain ⟨hlen, hafter⟩ | ⟨hlen, hafter⟩ := ownAfter_cases (i := i) (h.position i u hown).2
    · rw [hafter]; exact h.continuing hown hop hrun hwait hlen _
    · rw [hafter]; exact h.finishing hown hlen hop hrun _

/-- Settles O40: a step is a firing, an issue, a hold or a micro-operation; a firing finds its lines at 0, and a
micro-operation leaves the lines, SR and the flags where its position says. -/
theorem everyStepKeepsTheInvariant : Obligations.EveryStepKeepsTheInvariant :=
  fun _ _ h => ⟨fun _ => h.stepWith, h.stepWith⟩

end Sys2Proof.Machine

/-! PROOFS. The chain observer and what a firing latches: R200, R201, R151 to R158. -/

namespace Sys2Proof.Machine

/-! ### The chain's reaction to a line write (R200) -/

theorem State.observe_sr_of_ne {l : Line} {b : Bool} {s : State} (h : (l, b) ≠ (.sclk, true) ∨ s.sclk ≠ .low) :
    (s.observe l b).sr = s.sr := by
  unfold State.observe
  split
  · rw [if_neg (h.resolve_left (by simp))]
  · split <;> simp
  · rfl

theorem State.observe_liveGs_of_ne {l : Line} {b : Bool} {s : State}
    (h : (l, b) ≠ (.xlat, true) ∨ s.xlat ≠ .low ∨ s.vprg ≠ .low) : (s.observe l b).liveGs = s.liveGs := by
  unfold State.observe
  split
  · split <;> simp
  · have h' := h.resolve_left (by simp)
    split
    · have hvprg : s.vprg ≠ .low := h'.resolve_left (by simpa using ‹s.xlat = .low›)
      unfold State.latch
      split
      · exact absurd ‹_› hvprg
      · rfl
      · rfl
    · rfl
  · rfl

theorem State.observe_liveDc_of_ne {l : Line} {b : Bool} {s : State}
    (h : (l, b) ≠ (.xlat, true) ∨ s.xlat ≠ .low ∨ s.vprg ≠ .high) : (s.observe l b).liveDc = s.liveDc := by
  unfold State.observe
  split
  · split <;> simp
  · have h' := h.resolve_left (by simp)
    split
    · have hvprg : s.vprg ≠ .high := h'.resolve_left (by simpa using ‹s.xlat = .low›)
      unfold State.latch
      split
      · rfl
      · exact absurd ‹_› hvprg
      · rfl
    · rfl
  · rfl

/-- A rising SCLK has the chain take SIN's bit. -/
theorem State.observe_sclk_rise {s : State} {b : Bool} (hsclk : s.sclk = .low) (hsin : s.sin = Level.ofBit b) :
    s.observe .sclk true = { s with sr := s.sr ++ [b] } := by
  cases b <;> simp [State.observe, hsclk, State.takeBit, hsin, Level.ofBit]

/-- A rising XLAT in grayscale mode latches LIVE_GS. -/
theorem State.observe_xlat_gs {s : State} (hxlat : s.xlat = .low) (hvprg : s.vprg = .low)
    (hlen : s.cfg.frameBits ≤ s.sr.length) :
    s.observe .xlat true = { s with liveGs := lastBits s.cfg.frameBits s.sr } := by
  simp [State.observe, hxlat, State.latch, hvprg, State.latched, State.drawsAfterLatch, Nat.not_lt.mpr hlen]

/-- A rising XLAT in dot-correction mode latches LIVE_DC. -/
theorem State.observe_xlat_dc {s : State} (hxlat : s.xlat = .low) (hvprg : s.vprg = .high)
    (hlen : s.cfg.dcBits ≤ s.sr.length) :
    s.observe .xlat true = { s with liveDc := lastBits s.cfg.dcBits s.sr } := by
  simp [State.observe, hxlat, State.latch, hvprg, State.latched, State.drawsAfterLatch, Nat.not_lt.mpr hlen]

/-- Settles O58: the observer reacts to the two rising edges alone. -/
theorem chainObserver : Obligations.ChainObserver := by
  intro s l b
  refine ⟨fun hsclk hsin => ?_, fun hsclk hsin => ?_, fun hxlat hvprg hlen => ?_, fun hxlat hvprg hlen => ?_,
    fun h => ?_, fun h => ?_, fun h => ?_⟩
  · rw [State.driveLine_sr, State.observe_sclk_rise (b := true) hsclk hsin]
  · rw [State.driveLine_sr, State.observe_sclk_rise (b := false) hsclk hsin]
  · rw [State.driveLine_liveGs, State.observe_xlat_gs hxlat hvprg hlen]; rfl
  · rw [State.driveLine_liveDc, State.observe_xlat_dc hxlat hvprg hlen]; rfl
  · rw [State.driveLine_sr, State.observe_sr_of_ne h]
  · rw [State.driveLine_liveGs, State.observe_liveGs_of_ne h]
  · rw [State.driveLine_liveDc, State.observe_liveDc_of_ne h]

/-- Settles O57: a line write sets its line after the chain has reacted, and the chain moves no line. -/
theorem lineWriteChangesOneLine : Obligations.LineWriteChangesOneLine := by
  intro s l k b
  refine ⟨by rw [State.driveLine_line, if_pos rfl], fun hk => ?_, State.driveLine_trace l b s⟩
  rw [State.driveLine_line, if_neg hk.symm]

/-! ### A channel's output (R200, R201) -/

/-- One more bit doubles the number and adds the bit. -/
theorem bitsToNat_concat (bits : List Bool) (b : Bool) : bitsToNat (bits ++ [b]) = 2 * bitsToNat bits + b.toNat := by
  simp [bitsToNat]

theorem bitsToNat_lt (bits : List Bool) : bitsToNat bits < 2 ^ bits.length := by
  induction bits using List.reverseRecOn with
  | nil => exact Nat.one_pos
  | append_singleton bits b ih =>
    have hb := b.toNat_le
    rw [bitsToNat_concat, List.length_append, List.length_singleton, Nat.pow_succ]
    omega

/-- Bit j from the front is bit length - 1 - j of the number (R200). -/
theorem testBit_bitsToNat (bits : List Bool) {j : Nat} (hj : j < bits.length) :
    bits[j]? = some ((bitsToNat bits).testBit (bits.length - 1 - j)) := by
  induction bits using List.reverseRecOn with
  | nil => simp at hj
  | append_singleton bits b ih =>
    rw [List.length_append, List.length_singleton] at hj ⊢
    have hdiv : (2 * bitsToNat bits + b.toNat) / 2 = bitsToNat bits := by have := b.toNat_le; omega
    have hmod : (2 * bitsToNat bits + b.toNat) % 2 = b.toNat := by have := b.toNat_le; omega
    rw [bitsToNat_concat]
    obtain hlt | rfl : j < bits.length ∨ j = bits.length := by omega
    · rw [List.getElem?_append_left hlt, ih hlt, show bits.length + 1 - 1 - j = bits.length - 1 - j + 1 by omega,
        Nat.testBit_succ, hdiv]
    · rw [List.getElem?_append_right (Nat.le_refl _), Nat.sub_self, show bits.length + 1 - 1 - bits.length = 0 by omega,
        Nat.testBit_zero, hmod]
      cases b <;> rfl

/-- A field of a register: k bits from bit k * c on, most significant first. -/
theorem bitsToNat_field (bits : List Bool) {k c n : Nat} (hlen : bits.length = k * n) (hc : c < n) :
    bitsToNat ((bits.drop (k * c)).take k) < 2 ^ k ∧
      ∀ j < k, bits[k * c + j]? = some ((bitsToNat ((bits.drop (k * c)).take k)).testBit (k - 1 - j)) := by
  have hroom : k * c + k ≤ k * n := by rw [← Nat.mul_succ]; exact Nat.mul_le_mul_left k hc
  have hfield : ((bits.drop (k * c)).take k).length = k := by rw [List.length_take, List.length_drop]; omega
  have hlt := bitsToNat_lt ((bits.drop (k * c)).take k)
  rw [hfield] at hlt
  refine ⟨hlt, fun j hj => ?_⟩
  have hbit := testBit_bitsToNat ((bits.drop (k * c)).take k) (j := j) (by omega)
  rwa [hfield, List.getElem?_take_of_lt hj, List.getElem?_drop] at hbit

/-- Settles O59: a channel's fields are 12 and 6 bits of the registers, most significant first. -/
theorem visibleOutput : Obligations.VisibleOutput := by
  intro s c
  refine ⟨fun hblank => by simp [State.visible, hblank], fun hblank hc hgs hdc => ?_⟩
  obtain ⟨hgslt, hgsbits⟩ := bitsToNat_field s.liveGs (k := 12) (n := 16 * s.cfg.numDrivers)
    (by rw [hgs, Config.frameBits]; omega) hc
  obtain ⟨hdclt, hdcbits⟩ := bitsToNat_field s.liveDc (k := 6) (n := 16 * s.cfg.numDrivers)
    (by rw [hdc, Config.dcBits]; omega) hc
  exact ⟨_, _, by simp [State.visible, hblank]; exact ⟨rfl, rfl⟩, hgslt, hdclt, hgsbits, hdcbits⟩

/-! ### A firing with TP = 1 (R152, R153) -/

theorem State.isr_of_tp {s : State} (htp : s.tp = true) :
    s.isr = ((s.isrEntry.pulse .xlat).setFlag .tp false).isrExtraPulse.isrExit := by
  have hentry : s.isrEntry.tp = true := by rw [State.isrEntry_eq]; exact htp
  simp only [State.isr, State.isrLatch, hentry, if_true]

/-- Where XLAT is 0 and the mode is grayscale the pulse of XLAT latches LIVE_GS. -/
theorem State.pulse_xlat {s : State} (hxlat : s.xlat = .low) (hvprg : s.vprg = .low)
    (hlen : s.cfg.frameBits ≤ s.sr.length) :
    s.pulse .xlat = { s with
      liveGs := lastBits s.cfg.frameBits s.sr
      trace := s.trace ++ [.set .xlat true, .set .xlat false] } := by
  simp only [State.pulse, State.driveLine, State.observe_xlat_gs hxlat hvprg hlen]
  simp [State.observe, State.setLine, State.emit, Level.ofBit, ← hxlat]

/-- Where SCLK is 0 and SIN driven the pulse of SCLK has the chain take SIN's bit. -/
theorem State.pulse_sclk {s : State} {b : Bool} (hsclk : s.sclk = .low) (hsin : s.sin = Level.ofBit b) :
    s.pulse .sclk = { s with
      sr := s.sr ++ [b]
      trace := s.trace ++ [.set .sclk true, .set .sclk false] } := by
  simp only [State.pulse, State.driveLine, State.observe_sclk_rise hsclk hsin]
  simp [State.observe, State.setLine, State.emit, Level.ofBit, ← hsclk]

/-- After the latch a firing commits nothing more, whatever the extra pulse does to SR. -/
theorem State.live_after_latch (s : State) :
    s.isrExtraPulse.isrExit.liveGs = s.liveGs ∧ s.isrExtraPulse.isrExit.liveDc = s.liveDc := by
  unfold State.isrExtraPulse
  split
  · simp [State.isrExit, State.pulse, State.observe_liveGs_of_ne, State.observe_liveDc_of_ne]
  · simp [State.isrExit, State.observe_liveGs_of_ne, State.observe_liveDc_of_ne]

/-- A firing with TP = 1 latches LIVE_GS. -/
theorem State.isr_liveGs_of_tp {s : State} (htp : s.tp = true) (hxlat : s.xlat = .low) (hvprg : s.vprg = .low)
    (hlen : s.cfg.frameBits ≤ s.sr.length) : s.isr.liveGs = lastBits s.cfg.frameBits s.sr := by
  rw [State.isr_of_tp htp, (State.live_after_latch _).1, State.isrEntry_eq,
    State.pulse_xlat (s := { s with blank := .high, gsclkRun := false, trace := _ }) hxlat hvprg hlen]
  rfl

/-- A firing that latches in no dot-correction mode leaves LIVE_DC. -/
theorem State.isr_liveDc {s : State} (hvprg : s.tp = true → s.vprg ≠ .high) : s.isr.liveDc = s.liveDc := by
  cases htp : s.tp with
  | false => rw [State.isr_of_not_tp htp]
  | true =>
    have hrise : ∀ x : State, x.vprg ≠ .high → (x.pulse .xlat).liveDc = x.liveDc := fun x hx => by
      rw [State.pulse, State.driveLine_liveDc, State.observe_liveDc_of_ne (.inl (by simp)), State.driveLine_liveDc,
        State.observe_liveDc_of_ne (.inr (.inr hx))]
    rw [State.isr_of_tp htp, (State.live_after_latch _).2, State.setFlag_liveDc, hrise]
    · rw [State.isrEntry_eq]
    · rw [State.isrEntry_eq]; exact hvprg htp

/-- The bit the extra pulse of a firing with TP = 1 sends is SIN's level, where the pulse is owed. -/
theorem State.isr_sr_of_tp {s : State} (htp : s.tp = true) (hsclk : s.sclk = .low) :
    (s.np = false → s.isr.sr = s.sr) ∧ ∀ b, s.np = true → s.sin = Level.ofBit b → s.isr.sr = s.sr ++ [b] := by
  refine ⟨fun hnp => ?_, fun b hnp hsin => ?_⟩
  · simp [State.isr_of_tp htp, State.isrExtraPulse, State.isrEntry_eq, hnp, State.isrExit, State.pulse,
      State.observe_sr_of_ne]
  · have hpulsed : ∀ x : State, x.np = true → x.sclk = .low → x.sin = Level.ofBit b →
        x.isrExtraPulse.isrExit.sr = x.sr ++ [b] := by
      intro x hx hlow hbit
      rw [State.isrExtraPulse, if_pos hx, State.isrExit_eq, State.pulse_sclk hlow hbit]
      rfl
    rw [State.isr_of_tp htp, hpulsed]
    · simp [State.isrEntry_eq, State.pulse, State.observe_sr_of_ne]
    · simp [State.isrEntry_eq, hnp]
    · simp [State.isrEntry_eq, State.pulse, State.driveLine_sclk, hsclk]
    · simp [State.isrEntry_eq, State.pulse, State.driveLine_sin, hsin]

/-- R151 to R154: the events of a firing. -/
theorem State.isr_trace (s : State) : s.isr.trace = s.trace ++ [.set .blank true, .gsclk false] ++
    (if s.tp then [.set .xlat true, .set .xlat false] else []) ++
    (if s.tp && s.np then [.set .sclk true, .set .sclk false] else []) ++ [.set .blank false, .gsclk true] := by
  cases htp : s.tp <;> cases hnp : s.np <;>
    simp [State.isr, State.isrEntry, State.isrLatch, State.isrExtraPulse, State.isrExit, htp, hnp]

/-- Settles O32: the four cases of the latch decision, with R67's levels the chain's reactions to its pulses. -/
theorem isrFourCases : Obligations.IsrFourCases := by
  intro s
  refine ⟨s.isr_tp, s.isr_np, rfl, rfl, s.isr_trace, fun htp => ?_, fun htp hsclk hxlat hvprg hlen => ?_⟩
  · rw [State.isr_of_not_tp htp]
    exact ⟨rfl, rfl, rfl⟩
  · have hgs := State.isr_liveGs_of_tp htp hxlat hvprg hlen
    have hdc : s.isr.liveDc = s.liveDc := State.isr_liveDc fun _ => by simp [hvprg]
    obtain ⟨hnone, hbit⟩ := State.isr_sr_of_tp htp hsclk
    exact ⟨hgs, hdc, hnone, hbit true, hbit false⟩

/-- Settles O31: the latch decision branches on TP and then on NP, and R67 gives the mode. -/
theorem isrLatchDecision : Obligations.IsrLatchDecision := by
  intro s
  refine ⟨State.isrLatch_of_not_tp, fun htp hnp => ?_, fun htp hnp => ⟨?_, ?_⟩,
    fun h htp => h.line_low_of_tp htp (l := .vprg) (.inr (.inr rfl))⟩
  · rw [State.isrLatch, if_pos htp, State.isrExtraPulse, if_neg (by simp [hnp])]; rfl
  · rw [State.isrLatch, if_pos htp, State.isrExtraPulse, if_pos (by simp [hnp])]; rfl
  · simp [State.isrLatch, htp, State.isrExtraPulse, hnp]

/-- Settles O33: a firing writes BLANK, the clock, the trace and, when it latches, what it pulses and clears. -/
theorem isrFrame : Obligations.IsrFrame := by
  intro s
  have hsame : ∀ {l : Line}, l ≠ .blank → l ≠ .xlat → l ≠ .sclk → s.isr.line l = s.line l := fun hb hx hs => by
    rw [State.isr_line hb, if_neg (by simp [hx, hs])]
  refine ⟨s.isr_cfg, s.isr_fb, fun k => by rw [State.isr_fb], hsame (l := .sin) (by simp) (by simp) (by simp),
    hsame (l := .vprg) (by simp) (by simp) (by simp), s.isr_ie, s.isr_life, s.isr_own, s.isr_resp, s.isr_fault,
    s.isr_host, s.isr_tick, fun htp => ?_⟩
  rw [State.isr_of_not_tp htp]
  exact ⟨rfl, rfl, rfl, rfl⟩

end Sys2Proof.Machine

/-! PROOFS. What the invariant gives of every step and every run: R67, R22, R191, R202, R203, R23 and R132. -/

namespace Sys2Proof.Machine

/-! ### What the owner's operations do to the registers (R200) -/

/-- A micro-operation that is no rise of XLAT leaves both registers. -/
theorem MicroOp.run_live {op : MicroOp} {s v : State} (hrun : op.run s = .ok v) (hop : op ≠ .lset .xlat true) :
    v.liveGs = s.liveGs ∧ v.liveDc = s.liveDc := by
  obtain ⟨l, b, hwrites, rfl⟩ | ⟨-, rfl⟩ | ⟨f, b, -, rfl⟩ | ⟨b, -, rfl⟩ | ⟨b, -, rfl⟩ | ⟨-, rfl⟩ | ⟨a, -, ha⟩ :=
    MicroOp.run_cases hrun
  case inl =>
    have hne : (l, b) ≠ (.xlat, true) := by
      rintro ⟨⟩
      obtain hset | ⟨hsin, -⟩ := hwrites
      · exact hop hset
      · cases hsin
    rw [State.driveLine_liveGs, State.driveLine_liveDc, State.observe_liveGs_of_ne (.inl hne),
      State.observe_liveDc_of_ne (.inl hne)]
    exact ⟨rfl, rfl⟩
  case inr.inr.inr.inr.inr.inr =>
    obtain ⟨m, r, rfl⟩ := Accessor.run_ok ha
    exact ⟨rfl, rfl⟩
  all_goals exact ⟨by simp, by simp⟩

theorem lastBits_append (a b : List Bool) : lastBits b.length (a ++ b) = b := by
  rw [lastBits, List.length_append, Nat.add_sub_cancel, List.drop_left]

section
variable {s : State} (h : s.Inv)
include h

/-- SR ends with the bits the command in progress has sent. -/
theorem State.Inv.sr_eq {i : Instr} {u : Nat} {op : MicroOp} (hown : s.own = .busy i u)
    (hop : (programOf s.cfg.numDrivers i)[u]? = some op) (hlast : op ≠ .lifeset) :
    ∃ w taken, s.sr = taken ++ sentBits s.fb w ((programOf s.cfg.numDrivers i).take u) := by
  obtain ⟨w, taken, -, hsr⟩ := h.sent i u hown (by rw [State.nextOp_of_busy hown, hop]; simpa using hlast)
  rw [State.done_of_busy hown] at hsr
  exact ⟨w, taken, hsr⟩

/-- Where a command raises XLAT the chain is in dot-correction mode and has taken the command's whole stream. -/
theorem State.Inv.at_latch {i : Instr} {u v : Nat} (hown : s.own = .busy i u)
    (hlatch : LatchesDc s.cfg.numDrivers i u v) :
    s.xlat = .low ∧ s.vprg = .high ∧ ∃ before, s.sr = before ++ dcStream s.cfg.numDrivers v := by
  obtain ⟨hxlat, hvprg⟩ := hlatch.levels s.fb
  obtain ⟨w, taken, hsr⟩ := h.sr_eq hown hlatch.op (by simp)
  obtain ⟨before, hsent⟩ := hlatch.sentBits s.fb w
  exact ⟨(h.line_eq hown (l := .xlat) (.inr (.inl rfl))).trans hxlat,
    (h.line_eq hown (l := .vprg) (.inr (.inr rfl))).trans hvprg, taken ++ before,
    by rw [hsr, hsent, List.append_assoc]⟩

/-- Where a command sets TP the last bits the chain took are the frame. -/
theorem State.Inv.pending_of_setsTp {i : Instr} {u : Nat} {b : Bool} (hown : s.own = .busy i u)
    (hop : (programOf s.cfg.numDrivers i)[u]? = some (.fset .tp b)) :
    s.cfg.frameBits ≤ s.sr.length ∧ lastBits s.cfg.frameBits s.sr = s.frame := by
  obtain ⟨-, hsets⟩ := programOf_fset_tp hop
  obtain ⟨w, taken, hsr⟩ := h.sr_eq hown hop (by simp)
  obtain ⟨before, hsent⟩ := hsets.sentBits s.fb w
  have hframe : s.sr = (taken ++ before) ++ s.frame := by rw [hsr, hsent, List.append_assoc]; rfl
  have hlen : s.frame.length = s.cfg.frameBits := by simp [State.frame]
  rw [hframe, ← hlen, lastBits_append]
  exact ⟨by rw [List.length_append]; omega, rfl⟩

/-- The owner's operation does not latch LIVE_GS. -/
theorem State.Inv.run_liveGs {i : Instr} {u : Nat} {op : MicroOp} {v : State} (hown : s.own = .busy i u)
    (hop : (programOf s.cfg.numDrivers i)[u]? = some op) (hrun : op.run s = .ok v) : v.liveGs = s.liveGs := by
  by_cases hlatch : op = .lset .xlat true
  · subst hlatch
    obtain ⟨x, hx⟩ := programOf_latch hop
    obtain ⟨-, hvprg, -⟩ := h.at_latch hown hx
    cases hrun
    rw [State.driveLine_liveGs, State.observe_liveGs_of_ne (.inr (.inr (by simp [hvprg])))]
  · exact (MicroOp.run_live hrun hlatch).1

/-- With a frame pending the owner's operation sends no bit. -/
theorem State.Inv.run_sr_of_tp {i : Instr} {u : Nat} {op : MicroOp} {v : State} (hown : s.own = .busy i u)
    (hop : (programOf s.cfg.numDrivers i)[u]? = some op) (hwait : op = .waitTp0 → s.tp = false)
    (hrun : op.run s = .ok v) (htp : s.tp = true) : v.sr = s.sr := by
  have hsr := fun hrise => MicroOp.run_sr hrun hrise
  obtain ⟨a, rfl⟩ | rfl := h.op_of_tp hown hop htp hwait
  · simpa [MicroOp.sent] using hsr (by simp)
  · simpa [MicroOp.sent] using hsr (by simp)

/-- R202: every step keeps the pending frame, and a firing that latches publishes it. -/
theorem State.Inv.pending_step {t : State} {fires : Bool} {frame : List Bool} (hp : s.Pending frame)
    (hstep : Machine.stepWith fires s = .next t) :
    t.Pending (if t.tp && !s.tp then s.frame else frame) ∧
      t.liveGs = if fires && s.ie && s.tp then frame else s.liveGs := by
  obtain ⟨-, hs⟩ := steps_of_stepWith hstep
  have hkept : ∀ {x : State}, x.tp = s.tp → x.sr = s.sr → x.cfg = s.cfg →
      x.Pending (if x.tp && !s.tp then s.frame else frame) := by
    intro x htp hsr hcfg hx
    rw [htp] at hx
    rw [htp, hx, hsr, hcfg]
    exact hp hx
  have howner : (s.ie && fires) = false → (fires && s.ie && s.tp) = false := fun hno => by
    rw [Bool.and_comm fires, hno]; rfl
  cases hs with
  | firing hie hfires =>
    refine ⟨fun htp => by simp at htp, ?_⟩
    rw [hie, hfires]
    cases htp : s.tp with
    | false => rw [State.isr_of_not_tp (s := s.tickOn) htp]; rfl
    | true =>
      obtain ⟨hlen, hframe⟩ := hp htp
      exact (State.isr_liveGs_of_tp (s := s.tickOn) htp (h.line_low_of_tp htp (l := .xlat) (.inr (.inl rfl)))
        (h.line_low_of_tp htp (l := .vprg) (.inr (.inr rfl))) hlen).trans hframe
  | noWord hno | holding i u hno => exact ⟨hkept rfl rfl rfl, by rw [howner hno]; rfl⟩
  | faulting w rest code hno | accepting w rest i hno => exact ⟨hkept rfl rfl rfl, by rw [howner hno]; rfl⟩
  | performing i u op v hno hown hop hwait hrun =>
    refine ⟨?_, by rw [howner hno]; exact h.run_liveGs hown hop (v := v) hrun⟩
    obtain ⟨hcfg, -⟩ := MicroOp.run_ok hrun
    cases htp : s.tp with
    | true =>
      intro hv
      have hsame : v.tp = true := hv
      simp only [hsame, Bool.not_true, Bool.and_false, Bool.false_eq_true, if_false, hcfg,
        h.run_sr_of_tp hown hop hwait hrun htp]
      exact hp htp
    | false =>
      intro hv
      have hset : op = .fset .tp v.tp := (MicroOp.run_tp hrun).resolve_left fun hsame => by
        rw [show v.tp = true from hv, htp] at hsame
        cases hsame
      have hsr : v.sr = s.sr := by simpa [hset, MicroOp.sent] using MicroOp.run_sr hrun (by simp [hset])
      rw [hset] at hop
      simp only [show v.tp = true from hv, Bool.not_false, Bool.and_true, if_true, hcfg, hsr]
      exact h.pending_of_setsTp hown hop

end

/-- Settles O45: TP is set where SR ends with the frame, no owner step with TP = 1 sends a bit, and a firing latches
the last bits of SR. -/
theorem pendingFrameIsWhatGetsLatched : Obligations.PendingFrameIsWhatGetsLatched :=
  fun _ _ _ _ h hp hstep => h.pending_step hp hstep

/-! ### Reachable states -/

/-- The invariant holds in every reachable state. -/
theorem State.inv_of_reachable {s : State} (h : Reachable s) : s.Inv := by
  induction h with
  | create c program hc => exact State.inv_initial program hc
  | step fires s t _ hstep ih => exact ih.stepWith hstep

/-- Settles O43: R67 is the invariant's, with the levels of the lines read off the micro-program. -/
theorem reachableShiftExclusion : Obligations.ReachableShiftExclusion := by
  intro s hr htp
  have h := State.inv_of_reachable hr
  exact ⟨(h.exclusion htp).1, h.line_low_of_tp htp (l := .sclk) (.inl rfl),
    h.line_low_of_tp htp (l := .xlat) (.inr (.inl rfl)), h.line_low_of_tp htp (l := .vprg) (.inr (.inr rfl))⟩

/-- Settles O44: R22 is part of the invariant. -/
theorem reachableLowBitsZero : Obligations.ReachableLowBitsZero := fun _ hr => (State.inv_of_reachable hr).lowBits

/-- A frame is pending only with the interrupt enabled (R191). -/
theorem State.Inv.ie_of_tp {s : State} (h : s.Inv) (htp : s.tp = true) : s.ie = true :=
  h.interrupt.mpr <| (h.tp_cases htp).imp (fun hready => hready.1) fun hown => ⟨_, hown, by omega⟩

/-- DISPLAY and SETGLOBALDC begin with a wait (R129, R141). -/
theorem programOf_zero_wait (n : Nat) {i : Instr} (hi : i = .display ∨ ∃ v, i = .setglobaldc v) :
    (programOf n i)[0]? = some .waitTp0 := by
  obtain rfl | ⟨v, rfl⟩ := hi <;> rfl

/-- Settles O53: the invariant has IE set with TP; in the hang state itself the interrupt is disabled and the wait
holds. -/
theorem hangIsUnreachable : Obligations.HangIsUnreachable :=
  ⟨fun _ hr htp => (State.inv_of_reachable hr).ie_of_tp htp, fun s _ _ hfault hown hi htp hie =>
    stepWith_of_wait hfault (by rw [hie]; rfl) hown (programOf_zero_wait s.cfg.numDrivers hi) htp⟩

/-- With a frame pending it is the most recent DISPLAY's (R202). -/
def State.PendingIn (s : State) (frame : Option (List Bool)) : Prop :=
  s.tp = true → ∃ f, frame = some f ∧ s.Pending f

theorem ReachableWith.inv {s : State} {frame : Option (List Bool)} (h : ReachableWith s frame) : s.Inv := by
  induction h with
  | create c program hc => exact State.inv_initial program hc
  | step fires s t frame _ hstep ih => exact ih.stepWith hstep

theorem ReachableWith.pendingIn {s : State} {frame : Option (List Bool)} (h : ReachableWith s frame) :
    s.PendingIn frame := by
  induction h with
  | create c program hc => exact fun htp => Bool.noConfusion htp
  | step fires s t frame hr hstep ih =>
    intro htp
    rw [htp]
    cases hs : s.tp with
    | false =>
      have hp := (hr.inv.pending_step (frame := []) (fun h1 => by rw [hs] at h1; cases h1) hstep).1
      rw [htp, hs] at hp
      exact ⟨s.frame, rfl, hp⟩
    | true =>
      obtain ⟨f, hf, hpf⟩ := ih hs
      have hp := (hr.inv.pending_step hpf hstep).1
      rw [htp, hs] at hp
      exact ⟨f, hf, hp⟩

/-- Settles O46: along a run the pending frame is the most recent DISPLAY's, and each step does with it what O45
says. -/
theorem framesArePublishedWhole : Obligations.FramesArePublishedWhole := by
  intro s t fires frame hr hstep
  cases htp : s.tp with
  | true =>
    obtain ⟨f, rfl, hp⟩ := hr.pendingIn htp
    have hgs := (hr.inv.pending_step hp hstep).2
    rw [htp] at hgs
    split
    · rename_i hlatch
      rw [hgs, if_pos hlatch]
    · rename_i hlatch
      rw [hgs, if_neg hlatch]
  | false =>
    have hgs := (hr.inv.pending_step (frame := []) (fun h1 => by rw [htp] at h1; cases h1) hstep).2
    rw [htp, Bool.and_false] at hgs
    rw [Bool.and_false]
    exact hgs

/-! ### LIVE_DC (R203, R224) -/

/-- At the latch of a dot-correction load the registers take its stream. -/
theorem State.Inv.latch_liveDc {s : State} (h : s.Inv) {i : Instr} {u v : Nat} (hown : s.own = .busy i u)
    (hlatch : LatchesDc s.cfg.numDrivers i u v) :
    (s.driveLine .xlat true).liveDc = dcStream s.cfg.numDrivers v := by
  obtain ⟨hxlat, hvprg, before, hsr⟩ := h.at_latch hown hlatch
  have hlen : (dcStream s.cfg.numDrivers v).length = s.cfg.dcBits := length_dcStream _ _
  rw [State.driveLine_liveDc, State.observe_xlat_dc hxlat hvprg (by rw [hsr, List.length_append]; omega)]
  rw [hsr, ← hlen, lastBits_append]

/-- The owner's turn at a latch of dot correction makes LIVE_DC its stream. -/
theorem State.Inv.stepWith_latch {s t : State} {fires : Bool} (h : s.Inv) {i : Instr} {u v : Nat}
    (hstep : Machine.stepWith fires s = .next t) (hno : (s.ie && fires) = false) (hown : s.own = .busy i u)
    (hlatch : LatchesDc s.cfg.numDrivers i u v) : t.liveDc = dcStream s.cfg.numDrivers v := by
  obtain ⟨hfault, -⟩ := steps_of_stepWith hstep
  cases (stepWith_of_run hfault hno hown hlatch.op (by simp) rfl).symm.trans hstep
  exact h.latch_liveDc hown hlatch

/-- A firing latches LIVE_GS alone: VPRG is 0 when it latches. -/
theorem State.Inv.isr_liveDc {s : State} (h : s.Inv) : s.isr.liveDc = s.liveDc :=
  State.isr_liveDc fun htp => by
    rw [show s.vprg = .low from h.line_low_of_tp htp (l := .vprg) (.inr (.inr rfl))]
    simp

/-- Settles O47: the owner raises XLAT only at the end of a dot-correction load, whose stream SR then ends with. -/
theorem dotCorrectionLatchesItsOwnValue : Obligations.DotCorrectionLatchesItsOwnValue := by
  intro s t fires h hstep
  refine ⟨fun v hown hno => ?_, fun hown hno => ?_, fun hnone => ?_⟩
  · exact h.stepWith_latch hstep hno hown ⟨0, .setglobaldc v, (Nat.zero_add _).symm⟩
  · exact h.stepWith_latch hstep hno hown ⟨5, .init, by omega⟩
  · obtain ⟨-, hs⟩ := steps_of_stepWith hstep
    cases hs with
    | firing => exact (h.bookkeeping s.fault s.host (s.tick + 1)).isr_liveDc
    | noWord | holding | faulting | accepting => rfl
    | performing i u op v hno hown hop hwait hrun =>
      refine (MicroOp.run_live hrun ?_).2
      rintro rfl
      obtain ⟨x, base, hpart, rfl⟩ := programOf_latch hop
      obtain hfire | ⟨hdc, hinit⟩ := hnone
      · rw [hno] at hfire; cases hfire
      · cases hpart with
        | setglobaldc => exact hdc x (by rw [hown, Nat.zero_add])
        | init => exact hinit (by rw [hown]; congr 1; omega)

/-! ### FB during DISPLAY (R132) -/

/-- Settles O48: DISPLAY has no accessor among its operations. -/
theorem bufferIsConstantDuringDisplay : Obligations.BufferIsConstantDuringDisplay := by
  intro s t fires u hown hstep
  have hfb : t.fb = s.fb := by
    obtain ⟨-, hs⟩ := steps_of_stepWith hstep
    cases hs with
    | firing => exact State.isr_fb _
    | noWord | holding | faulting | accepting => rfl
    | performing i w op v _ hbusy hop _ hrun =>
      refine ((MicroOp.run_fb_resp hrun).resolve_right ?_).1
      rintro ⟨a, rfl⟩
      obtain ⟨rfl, -⟩ := programOf_acc hop
      rw [hown] at hbusy
      cases a <;> cases hbusy
  exact ⟨hfb, by rw [State.frame, State.frame, hfb, stepWith_cfg hstep]⟩

/-! ### TP (R23) -/

/-- DISPLAY's last micro-step sets TP and ends the command (R130). -/
theorem exec_display_last {s : State} (hfault : s.fault = none)
    (hown : s.own = .busy .display (576 * s.cfg.numDrivers + 2)) :
    exec .display s = .next { s with tp := true, own := .idle } := by
  rw [exec_of_run hfault hown (displayProgram_last s.cfg.numDrivers) (by simp) rfl, programOf, length_displayProgram,
    ownAfter, if_neg (by omega)]
  rfl

/-- What one step does to TP: nothing, the owner sets it, or a firing clears it. -/
theorem stepWith_tp {fires : Bool} {s t : State} (h : stepWith fires s = .next t) :
    ((s.ie && fires) = true ∧ t.tp = false) ∨
      ((s.ie && fires) = false ∧ (t.tp = s.tp ∨ (t.tp = true ∧ ∃ i u, s.own = .busy i u ∧
        SetsTp s.cfg.numDrivers i u))) := by
  obtain ⟨-, hs⟩ := steps_of_stepWith h
  cases hs with
  | firing hie hfires => exact .inl ⟨by rw [hie, hfires]; rfl, State.isr_tp _⟩
  | noWord hno | holding _ _ hno | faulting _ _ _ hno | accepting _ _ _ hno => exact .inr ⟨hno, .inl rfl⟩
  | performing i u op v hno hown hop _ hrun =>
    refine .inr ⟨hno, (MicroOp.run_tp hrun).imp_right fun hset => ?_⟩
    rw [hset] at hop
    obtain ⟨htp, hsets⟩ := programOf_fset_tp hop
    exact ⟨htp, i, u, hown, hsets⟩

/-- Settles O49: of the owner's operations only the last of a display writes TP, of a firing only the latch
decision. -/
theorem transferPendingWriters : Obligations.TransferPendingWriters := by
  refine ⟨fun c => rfl, fun s t fires hstep => ⟨fun hs ht => ?_, fun hs ht => ?_, fun hie hfires => ?_⟩,
    fun s hfault hown => exec_display_last hfault hown, fun s v hfault htp => ⟨fun hown => ?_, fun hown => ?_⟩⟩
  · obtain ⟨-, hclear⟩ | ⟨hno, hsame | ⟨-, i, u, hown, base, hpart, rfl⟩⟩ := stepWith_tp hstep
    · rw [ht] at hclear; cases hclear
    · rw [hs, ht] at hsame; cases hsame
    · refine ⟨hno, ?_⟩
      cases hpart with
      | display => exact .inl (by rw [hown, Nat.zero_add])
      | init => exact .inr (by rw [hown]; congr 1; omega)
  · obtain ⟨hfire, -⟩ | ⟨-, hsame | ⟨hset, -⟩⟩ := stepWith_tp hstep
    · simpa using hfire
    · rw [hs, ht] at hsame; cases hsame
    · rw [ht] at hset; cases hset
  · obtain ⟨-, hclear⟩ | ⟨hno, -⟩ := stepWith_tp hstep
    · exact hclear
    · rw [hie, hfires] at hno; cases hno
  · exact exec_of_wait hfault hown (programOf_zero_wait _ (.inl rfl)) htp
  · exact exec_of_wait hfault hown (programOf_zero_wait _ (.inr ⟨v, rfl⟩)) htp

end Sys2Proof.Machine

/-! PROOFS. Issue, faults and the micro-steps of the commands: R120, R129, R141, R170 and R181 to R192. -/

namespace Sys2Proof.Machine

/-! ### The checks at issue (R182 to R185) -/

/-- R185: the first check that fails, for a command a word can spell. -/
theorem firstFault_checksOf_eq {i : Instr} (hwf : i.wf = true) (s : State) : firstFault (s.checksOf i) =
    if i = .init ∧ s.life = .ready then some .reinit
    else if i ≠ .init ∧ s.life = .uninit then some .notInitialised
    else if (channelOperand i).any (fun c => decide (16 * s.cfg.numDrivers ≤ c)) = true then some .channelRange
    else if (intensityOperand i).any (fun v => decide (2 ^ s.cfg.resolutionBits ≤ v)) = true then
      some .intensityRange
    else none := by
  cases i with
  | init => cases hl : s.life <;> simp [State.checksOf, State.initCheck, firstFault, hl, channelOperand, intensityOperand]
  | clear | display =>
    cases hl : s.life <;> simp [State.checksOf, State.readyCheck, firstFault, hl, channelOperand, intensityOperand]
  | getled c =>
    by_cases hc : 16 * s.cfg.numDrivers ≤ c <;> cases hl : s.life <;>
      simp [State.checksOf, State.readyCheck, State.channelCheck, Config.channels, firstFault, hl, hc, channelOperand,
        intensityOperand]
  | setled c v =>
    by_cases hc : 16 * s.cfg.numDrivers ≤ c <;> by_cases hv : 2 ^ s.cfg.resolutionBits ≤ v <;> cases hl : s.life <;>
      simp [State.checksOf, State.readyCheck, State.channelCheck, State.intensityCheck, Config.channels, firstFault, hl,
        hc, hv, channelOperand, intensityOperand]
  | setglobaldc v =>
    have hv : ¬ 64 ≤ v := by simpa [Instr.wf] using hwf
    cases hl : s.life <;>
      simp [State.checksOf, dcCheck, hv, State.readyCheck, firstFault, hl, channelOperand, intensityOperand]

/-- Settles O15: a decoded word's command is checked in the order of R185, and its fault records the word. -/
theorem issueChecksInOrder : Obligations.IssueChecksInOrder := by
  intro s w rest hfault hown hhost
  refine ⟨fun e => State.ownerStep_of_error hown hhost, fun i hdec => ?_⟩
  rw [State.ownerStep_of_word hown hhost hdec, exec_of_idle (s := { s with host := rest }) hfault hown, State.issue,
    firstFault_checksOf_eq (wf_of_decode hdec), encode_of_decode hdec]
  congr 1
  split_ifs <;> rfl

/-- Settles O16: every agent and every command looks at FAULT first. -/
theorem faultIsSticky : Obligations.FaultIsSticky := by
  refine ⟨fun c => rfl, fun s f hf => ⟨fun fires => ?_, ?_, fun i => ?_⟩⟩
  · simp only [stepWith, hf]
  · simp only [step, stepWith, hf]
  · rw [exec_eq]; simp only [State.ownerCommand, hf]

/-- Settles O17: of the steps only the faulting issue writes FAULT, and it writes nothing else. -/
theorem faultingCommandChangesOnlyFault : Obligations.FaultingCommandChangesOnlyFault := by
  intro s t fires hstep hfault
  obtain ⟨hnone, hs⟩ := steps_of_stepWith hstep
  cases hs with
  | firing => exact absurd (by simpa using hnone) hfault
  | noWord | holding | accepting => exact absurd hnone hfault
  | faulting w rest code _ hown hhost => exact ⟨hown, w, code, hhost, rfl, rfl⟩
  | performing i u op v _ _ _ _ hrun =>
    obtain ⟨-, -, hsame, -, -⟩ := MicroOp.run_ok hrun
    exact absurd (hsame.trans hnone) hfault

/-- Settles O18: the shared operation compares the command with the one in progress. -/
theorem secondCallerIsRefused : Obligations.SecondCallerIsRefused := by
  intro s i j u hfault hown hne
  rw [exec_eq]
  simp only [State.ownerCommand, hfault, hown, if_neg hne.symm]

/-! ### One micro-step (R120) -/

/-- A micro-step that is not the last moves the owner on. -/
theorem exec_of_run_next {i : Instr} {s v : State} {u w : Nat} {op : MicroOp} (hfault : s.fault = none)
    (hown : s.own = .busy i u) (hop : (programOf s.cfg.numDrivers i)[u]? = some op)
    (hwait : op = .waitTp0 → s.tp = false) (hrun : op.run s = .ok v) (hnext : u + 1 = w)
    (hlen : w < (programOf s.cfg.numDrivers i).length) : exec i s = .next { v with own := .busy i w } := by
  rw [exec_of_run hfault hown hop hwait hrun, ownAfter, hnext, if_pos hlen]

/-- The last micro-step ends the command. -/
theorem exec_of_run_last {i : Instr} {s v : State} {u : Nat} {op : MicroOp} (hfault : s.fault = none)
    (hown : s.own = .busy i u) (hop : (programOf s.cfg.numDrivers i)[u]? = some op)
    (hwait : op = .waitTp0 → s.tp = false) (hrun : op.run s = .ok v)
    (hlen : u + 1 = (programOf s.cfg.numDrivers i).length) : exec i s = .next { v with own := .idle } := by
  rw [exec_of_run hfault hown hop hwait hrun, ownAfter, hlen, if_neg (Nat.lt_irrefl _)]

/-- Settles O19: the step of a command in progress is its next micro-operation, and the owner moves on. -/
theorem microStepPerformsTheNextOperation : Obligations.MicroStepPerformsTheNextOperation := by
  intro i s t u op hfault hown hop hwait hrun
  obtain ⟨hlt, -⟩ := List.getElem?_eq_some_iff.mp hop
  split
  · exact exec_of_run_last hfault hown hop hwait hrun ‹_›
  · exact exec_of_run_next hfault hown hop hwait hrun rfl (by omega)

/-- Settles O20: each bit is three operations. -/
theorem microProgramLengths : Obligations.MicroProgramLengths := fun n v =>
  ⟨length_displayProgram n, length_dcProgram n v, length_initProgram n⟩

/-! ### DISPLAY (R129) -/

/-- DISPLAY's operations of bit p, at the indices of R129. -/
theorem displayProgram_ops {n p : Nat} (hp : p < 192 * n) : (displayProgram n)[2 + 3 * p]? = some (.sinfb p) ∧
    (displayProgram n)[3 + 3 * p]? = some (.lset .sclk true) ∧
    (displayProgram n)[4 + 3 * p]? = some (.lset .sclk false) := by
  refine ⟨displayProgram_bit n p 0 hp (by omega), ?_, ?_⟩
  · rw [show 3 + 3 * p = 2 + (3 * p + 1) by omega]; exact displayProgram_bit n p 1 hp (by omega)
  · rw [show 4 + 3 * p = 2 + (3 * p + 2) by omega]; exact displayProgram_bit n p 2 hp (by omega)

/-- Settles O22: at each index stands the operation R129 gives, and it completes. -/
theorem displayMicroSteps : Obligations.DisplayMicroSteps := by
  intro s hfault
  have hlen : (programOf s.cfg.numDrivers .display).length = 576 * s.cfg.numDrivers + 3 := length_displayProgram _
  refine ⟨fun hown htp => ?_, fun hown => ?_, fun p hp => ?_, exec_display_last hfault⟩
  · exact exec_of_run_next hfault hown (displayProgram_zero _) (fun _ => htp) rfl rfl (by omega)
  · exact exec_of_run_next hfault hown (displayProgram_one _) (by simp) rfl rfl (by omega)
  · obtain ⟨h0, h1, h2⟩ := displayProgram_ops hp
    refine ⟨fun hown => ?_, fun hown => ?_, fun hown => ?_⟩
    · exact exec_of_run_next hfault hown h0 (by simp) (State.driveSinFromFb_of_lt hp) (by omega) (by omega)
    · exact exec_of_run_next hfault hown h1 (by simp) rfl (by omega) (by omega)
    · exact exec_of_run_next hfault hown h2 (by simp) rfl (by omega) (by omega)

/-! ### SETGLOBALDC (R141) -/

/-- SETGLOBALDC's operations of stream bit q, at the indices of R141. -/
theorem dcProgram_ops {n q : Nat} (v : Nat) (hq : q < 96 * n) :
    (dcProgram n v)[2 + 3 * q]? = some (.sinv (v.testBit (5 - q % 6))) ∧
    (dcProgram n v)[3 + 3 * q]? = some (.lset .sclk true) ∧
    (dcProgram n v)[4 + 3 * q]? = some (.lset .sclk false) := by
  refine ⟨dcProgram_bit n v q 0 hq (by omega), ?_, ?_⟩
  · rw [show 3 + 3 * q = 2 + (3 * q + 1) by omega]; exact dcProgram_bit n v q 1 hq (by omega)
  · rw [show 4 + 3 * q = 2 + (3 * q + 2) by omega]; exact dcProgram_bit n v q 2 hq (by omega)

/-- Settles O24: at each index stands the operation R141 gives, and it completes. -/
theorem setglobaldcMicroSteps : Obligations.SetglobaldcMicroSteps := by
  intro s v hfault
  have hlen : (programOf s.cfg.numDrivers (.setglobaldc v)).length = 288 * s.cfg.numDrivers + 6 := length_dcProgram _ v
  refine ⟨fun hown htp => ?_, fun hown => ?_, fun q hq => ?_, fun hown => ?_, fun hown => ?_, fun hown => ?_,
    exec_setglobaldc_last hfault⟩
  · exact exec_of_run_next hfault hown (dcProgram_zero _ v) (fun _ => htp) rfl rfl (by omega)
  · exact exec_of_run_next hfault hown (dcProgram_one _ v) (by simp) rfl rfl (by omega)
  · obtain ⟨h0, h1, h2⟩ := dcProgram_ops v hq
    refine ⟨fun hown => ?_, fun hown => ?_, fun hown => ?_⟩
    · exact exec_of_run_next hfault hown h0 (by simp) rfl (by omega) (by omega)
    · exact exec_of_run_next hfault hown h1 (by simp) rfl (by omega) (by omega)
    · exact exec_of_run_next hfault hown h2 (by simp) rfl (by omega) (by omega)
  · exact exec_of_run_next hfault hown (dcProgram_tail _ v 0) (by simp) rfl (by omega) (by omega)
  · exact exec_of_run_next hfault hown (dcProgram_tail _ v 1) (by simp) rfl (by omega) (by omega)
  · exact exec_of_run_next hfault hown (dcProgram_tail _ v 2) (by simp) rfl (by omega) (by omega)

/-! ### INIT (R170) -/

/-- Every operation completes where its accessor's channel, or its bit of the frame, exists. -/
theorem MicroOp.exists_run {op : MicroOp} {s : State} (hbit : ∀ p, op = .sinfb p → p < 192 * s.cfg.numDrivers)
    (hacc : ∀ a : Accessor, op = .acc a → s.accepts a.command = true) : ∃ v, op.run s = .ok v := by
  cases op with
  | sinfb p => exact ⟨_, State.driveSinFromFb_of_lt (hbit p rfl)⟩
  | acc a =>
    have ha := hacc a rfl
    cases a with
    | clear => exact ⟨_, State.clearBody_eq_zeroed s⟩
    | setled c x =>
      simp only [Accessor.command, State.accepts, Bool.and_eq_true, decide_eq_true_eq] at ha
      exact ⟨_, State.fieldWrite_of_lt _ ha.1.2⟩
    | getled c =>
      simp only [Accessor.command, State.accepts, Bool.and_eq_true, decide_eq_true_eq] at ha
      exact ⟨_, State.getledBody_of_read (State.fieldRead_of_lt ha.2)⟩
  | _ => exact ⟨_, rfl⟩

/-- INIT's micro-step in a part that stands in its micro-program is the part's own command's (R172, R175). -/
theorem exec_init_part {j : Instr} {s : State} {base k : Nat} (hj : j = .display ∨ ∃ v, j = .setglobaldc v)
    (hstands : StandsAt (programOf s.cfg.numDrivers j) base (initProgram s.cfg.numDrivers)) (hfault : s.fault = none)
    (hk : k < (programOf s.cfg.numDrivers j).length) (hown : s.own = .busy .init (base + k)) (htp : s.tp = false)
    (hlen : base + k + 1 < 864 * s.cfg.numDrivers + 17) :
    ∃ t, exec j { s with own := .busy j k } = .next t ∧
      exec .init s = .next { t with own := .busy .init (base + k + 1) } := by
  have hop : (programOf s.cfg.numDrivers j)[k]? = some ((programOf s.cfg.numDrivers j)[k]) :=
    List.getElem?_eq_getElem hk
  generalize (programOf s.cfg.numDrivers j)[k] = op at hop
  have hnotAcc : ∀ a : Accessor, op = .acc a → s.accepts a.command = true := by
    rintro a rfl
    obtain ⟨hcmd, -⟩ := programOf_acc hop
    obtain rfl | ⟨v, rfl⟩ := hj <;> cases a <;> cases hcmd
  obtain ⟨v, hrun⟩ := MicroOp.exists_run (fun p hp => programOf_sinfb (hp ▸ hop)) hnotAcc
  refine ⟨_, exec_of_run (s := { s with own := .busy j k }) hfault rfl hop (fun _ => htp)
    (MicroOp.run_withOwnTick (.busy j k) s.tick hrun), ?_⟩
  obtain ⟨-, -, -, -, htick⟩ := MicroOp.run_ok hrun
  rw [exec_of_run_next hfault hown ((hstands k hk).trans hop) (fun _ => htp) hrun rfl
    (hlen.trans_eq (length_initProgram _).symm), ← htick]

/-- Settles O26: INIT's parts stand where R170 puts them. -/
theorem initMicroSteps : Obligations.InitMicroSteps := by
  intro s hfault
  have hlen : (programOf s.cfg.numDrivers .init).length = 864 * s.cfg.numDrivers + 17 := length_initProgram _
  have hpin : ∀ (k : Nat) (l : Line) (b : Bool), initPins[k]? = some (.lset l b) → s.own = .busy .init k →
      exec .init s = .next { s.driveLine l b with own := .busy .init (k + 1) } := by
    intro k l b hpin hown
    have hk : k < 5 := (List.getElem?_eq_some_iff.mp hpin).1
    exact exec_of_run_next hfault hown ((initProgram_pins _ k hk).trans hpin) (by simp) rfl rfl (by omega)
  refine ⟨hpin 0 .sclk false rfl, hpin 1 .sin false rfl, hpin 2 .xlat false rfl, hpin 3 .vprg false rfl,
    hpin 4 .blank true rfl, fun u hu hown htp => ?_, fun hown => ?_, fun hown => exec_init_interrupt hfault hown,
    fun u hu hown htp => ?_, fun hown => ?_⟩
  · rw [show 6 + u = 5 + u + 1 by omega]
    exact exec_init_part (.inr ⟨63, rfl⟩) (.initDc _) hfault (hu.trans_eq (length_dcProgram _ 63).symm) hown htp
      (by omega)
  · exact exec_of_run_next hfault hown (initProgram_timers _) (by simp) rfl rfl (by omega)
  · rw [show 288 * s.cfg.numDrivers + 14 + u = 288 * s.cfg.numDrivers + 13 + u + 1 by omega]
    exact exec_init_part (.inl rfl) (.initDisplay _) hfault (hu.trans_eq (length_displayProgram _).symm) hown htp
      (by omega)
  · exact exec_of_run_last hfault hown (initProgram_last _) (by simp) rfl hlen.symm

/-! ### The frame of the shifting commands (R130, R140, R170) -/

/-- What a command's step can do: its issue, a hold, or its next operation. -/
theorem exec_cases {i : Instr} {s t : State} (h : exec i s = .next t) :
    s.fault = none ∧ ((s.own = .idle ∧ t = s.issue i (s.checksOf i)) ∨
      ∃ u op v, s.own = .busy i u ∧ (programOf s.cfg.numDrivers i)[u]? = some op ∧
        ((op.holds s = true ∧ v = s ∧ t = s) ∨ (op.holds s = false ∧ op.run s = .ok v ∧
          t = { v with own := ownAfter i (programOf s.cfg.numDrivers i).length u }))) := by
  rw [exec_eq] at h
  obtain ⟨hfault, hissue | ⟨u, hown, hmicro⟩⟩ := State.ownerCommand_cases h
  · exact ⟨hfault, .inl hissue⟩
  · obtain ⟨op, hop, ⟨hhold, rfl⟩ | ⟨hhold, v, hrun, rfl⟩⟩ := State.microStep_cases hmicro
    · exact ⟨hfault, .inr ⟨u, op, t, hown, hop, .inl ⟨hhold, rfl, rfl⟩⟩⟩
    · exact ⟨hfault, .inr ⟨u, op, v, hown, hop, .inr ⟨hhold, hrun, rfl⟩⟩⟩

/-- A relation to the old state that the issue, a hold and every operation of the command have, its step has. -/
theorem exec_induct {i : Instr} {s t : State} {P : State → Prop} (h : exec i s = .next t)
    (hown : ∀ x o f, P x → P { x with own := o, fault := f }) (hself : P s)
    (hrun : ∀ op v, op ∈ programOf s.cfg.numDrivers i → op.run s = .ok v → P v) : P t := by
  obtain ⟨-, ⟨-, rfl⟩ | ⟨u, op, v, -, hop, ⟨-, -, rfl⟩ | ⟨-, hv, rfl⟩⟩⟩ := exec_cases h
  · obtain ⟨o, f, hissue⟩ := State.issue_frame i (s.checksOf i) s
    rw [hissue]
    exact hown s o f hself
  · exact hself
  · exact hown v _ v.fault (hrun op v (List.mem_of_getElem? hop) hv)

/-- What every operation of a command other than an accessor leaves. -/
structure State.DataKept (s t : State) : Prop where
  cfg : t.cfg = s.cfg
  fb : t.fb = s.fb
  resp : t.resp = s.resp
  host : t.host = s.host
  tick : t.tick = s.tick

/-- What DISPLAY's operations leave besides. -/
structure State.DisplayKept (s t : State) : Prop where
  np : t.np = s.np
  life : t.life = s.life
  xlat : t.xlat = s.xlat
  blank : t.blank = s.blank
  ie : t.ie = s.ie
  gsclk : t.gsclkRun = s.gsclkRun
  liveGs : t.liveGs = s.liveGs
  liveDc : t.liveDc = s.liveDc

/-- What SETGLOBALDC's operations leave besides. -/
structure State.DcKept (s t : State) : Prop where
  tp : t.tp = s.tp
  life : t.life = s.life
  blank : t.blank = s.blank
  ie : t.ie = s.ie
  gsclk : t.gsclkRun = s.gsclkRun

theorem displayProgram_kept {n : Nat} {op : MicroOp} {s v : State} (hop : op ∈ displayProgram n)
    (hrun : op.run s = .ok v) : s.DisplayKept v := by
  have hdrive : ∀ {l : Line} {b : Bool}, l ≠ .xlat → l ≠ .blank → s.DisplayKept (s.driveLine l b) := by
    intro l b hx hb
    constructor <;> simp [State.driveLine_xlat, State.driveLine_blank, hx, hb, State.observe_liveGs_of_ne,
      State.observe_liveDc_of_ne]
  obtain ⟨u, hu⟩ := List.mem_iff_getElem?.mp hop
  obtain ⟨-, rfl⟩ | ⟨-, rfl⟩ | ⟨p, -, ⟨-, rfl⟩ | ⟨-, rfl⟩ | ⟨-, rfl⟩⟩ | ⟨-, rfl⟩ := displayProgram_cases hu
  · cases hrun; exact ⟨rfl, rfl, rfl, rfl, rfl, rfl, rfl, rfl⟩
  · cases hrun; exact hdrive (by simp) (by simp)
  · obtain ⟨b, rfl⟩ := State.driveSinFromFb_ok hrun; exact hdrive (by simp) (by simp)
  · cases hrun; exact hdrive (by simp) (by simp)
  · cases hrun; exact hdrive (by simp) (by simp)
  · cases hrun; exact ⟨rfl, rfl, rfl, rfl, rfl, rfl, rfl, rfl⟩

theorem dcProgram_kept {n x : Nat} {op : MicroOp} {s v : State} (hop : op ∈ dcProgram n x)
    (hrun : op.run s = .ok v) : s.DcKept v := by
  have hdrive : ∀ {l : Line} {b : Bool}, l ≠ .blank → s.DcKept (s.driveLine l b) := by
    intro l b hb
    constructor <;> simp [State.driveLine_blank, hb]
  obtain ⟨u, hu⟩ := List.mem_iff_getElem?.mp hop
  obtain ⟨-, rfl⟩ | ⟨-, rfl⟩ | ⟨q, -, ⟨-, rfl⟩ | ⟨-, rfl⟩ | ⟨-, rfl⟩⟩ | ⟨-, rfl⟩ | ⟨-, rfl⟩ | ⟨-, rfl⟩ | ⟨-, rfl⟩ :=
    dcProgram_cases hu
  case inl => cases hrun; exact ⟨rfl, rfl, rfl, rfl, rfl⟩
  case inr.inr.inr.inr.inr.inr => cases hrun; exact ⟨rfl, rfl, rfl, rfl, rfl⟩
  all_goals cases hrun; exact hdrive (by simp)

/-- Settles O29: none of the three has an accessor, DISPLAY writes VPRG, SIN, SCLK and TP alone, SETGLOBALDC those lines
with XLAT, and NP. -/
theorem shiftingCommandsFrame : Obligations.ShiftingCommandsFrame := by
  intro i s t hi h
  have hdata : s.DataKept t := by
    refine exec_induct h (fun x o f hx => ⟨hx.cfg, hx.fb, hx.resp, hx.host, hx.tick⟩) ⟨rfl, rfl, rfl, rfl, rfl⟩ ?_
    intro op v hop hrun
    obtain ⟨u, hu⟩ := List.mem_iff_getElem?.mp hop
    obtain ⟨hcfg, -, -, hhost, htick⟩ := MicroOp.run_ok hrun
    obtain ⟨hfb, hresp⟩ := (MicroOp.run_fb_resp hrun).resolve_right (by
      rintro ⟨a, rfl⟩
      obtain ⟨rfl, -⟩ := programOf_acc hu
      obtain hcmd | hcmd | ⟨x, hcmd⟩ := hi <;> cases a <;> cases hcmd)
    exact ⟨hcfg, hfb, hresp, hhost, htick⟩
  refine ⟨hdata.cfg, fun k => by rw [hdata.fb], hdata.fb, hdata.resp, hdata.host, hdata.tick, fun hbusy => ?_, ?_, ?_⟩
  · obtain ⟨-, ⟨hidle, -⟩ | ⟨u, op, v, -, -, ⟨-, -, rfl⟩ | ⟨-, hrun, rfl⟩⟩⟩ := exec_cases h
    · exact absurd hidle hbusy
    · rfl
    · exact (MicroOp.run_ok hrun).2.2.1
  · rintro rfl
    obtain ⟨hnp, hlife, hxlat, hblank, hie, hclock, hgs, hdc⟩ : s.DisplayKept t := by
      refine exec_induct h (fun x o f hx => ?_) ⟨rfl, rfl, rfl, rfl, rfl, rfl, rfl, rfl⟩ fun op v =>
        displayProgram_kept
      exact ⟨hx.np, hx.life, hx.xlat, hx.blank, hx.ie, hx.gsclk, hx.liveGs, hx.liveDc⟩
    exact ⟨hnp, hlife, hxlat, hblank, hie, hclock, hgs, hdc⟩
  · rintro ⟨v, rfl⟩
    obtain ⟨htp, hlife, hblank, hie, hclock⟩ : s.DcKept t :=
      exec_induct h (fun x o f hx => ⟨hx.tp, hx.life, hx.blank, hx.ie, hx.gsclk⟩) ⟨rfl, rfl, rfl, rfl, rfl⟩ fun op v =>
        dcProgram_kept
    exact ⟨htp, hlife, hblank, hie, hclock⟩

end Sys2Proof.Machine

/-! PROOFS. The two agents: when each steps, what a firing leaves the owner, and that every command completes (R121,
R133, R186 to R192, R233). -/

namespace Sys2Proof.Machine

/-! ### Reset and the step (R39, R186) -/

/-- Settles O37: reset is written out in the model, and an unlisted byte reads 0x00. -/
theorem resetValues : Obligations.ResetValues := by
  rintro c s rfl
  exact ⟨rfl, fun i hi => State.memRead_of_lt (s := State.initial c) hi, rfl, rfl, rfl, rfl, rfl, rfl, rfl, rfl, rfl, rfl,
    rfl, rfl, rfl, rfl⟩

theorem stepWith_of_no_fault {s : State} (fires : Bool) (hfault : s.fault = none) :
    stepWith fires s = if s.ie && fires then .next s.tickOn.isr else s.tickOn.ownerStep := by
  simp only [stepWith, hfault]

/-- Settles O34: without a fault the choice counts exactly when IE is set. -/
theorem interruptFiresBetweenAnyOwnerSteps : Obligations.InterruptFiresBetweenAnyOwnerSteps := by
  intro s hfault
  refine ⟨fun hie => stepWith_true_of_ie hfault hie, fun fires hie => ?_, ?_⟩
  · exact stepWith_of_no_firing hfault (by rw [hie]; rfl)
  · exact stepWith_of_no_firing hfault (Bool.and_false _)

/-- Settles O36: the owner's turn is the command in progress, else the host's next word. -/
theorem stepRunsTheDecodedInstruction : Obligations.StepRunsTheDecodedInstruction := by
  intro s hfault
  refine ⟨fun i u hown => ?_, fun w rest i hown hhost hdec _ => ?_, fun hown hhost => ?_⟩
  · rw [step, stepWith_of_no_fault _ hfault, State.ownerStep_of_busy (s := s.tickOn) hown]; rfl
  · rw [step, stepWith_of_no_fault _ hfault, State.ownerStep_of_word (s := s.tickOn) hown hhost hdec]; rfl
  · rw [step, stepWith_of_no_fault _ hfault, State.ownerStep_of_no_word (s := s.tickOn) hown hhost]; rfl

/-- Settles O28: the wait is the first micro-step of either command, and the firing clears TP. -/
theorem waitHoldsUntilTheLatch : Obligations.WaitHoldsUntilTheLatch := by
  intro s i hfault hown hi htp hie
  have hop := programOf_zero_wait s.cfg.numDrivers hi
  have hlen : 0 + 1 < (programOf s.cfg.numDrivers i).length := by
    obtain rfl | ⟨v, rfl⟩ := hi
    · exact Nat.lt_of_lt_of_eq (by omega) (length_displayProgram _).symm
    · exact Nat.lt_of_lt_of_eq (by omega) (length_dcProgram _ v).symm
  refine ⟨exec_of_wait hfault hown hop htp, stepWith_of_wait hfault (Bool.and_false _) hown hop htp, s.tickOn.isr,
    stepWith_true_of_ie hfault hie, State.isr_tp _, (State.isr_own _).trans hown, ?_⟩
  rw [stepWith_of_run (s := s.tickOn.isr) (op := .waitTp0) ((State.isr_fault _).trans hfault) (Bool.and_false _)
    ((State.isr_own _).trans hown) (by rw [State.isr_cfg]; exact hop) (fun _ => State.isr_tp _) rfl, ownAfter,
    if_pos (by rw [State.isr_cfg]; exact hlen)]

/-! ### An ended run (R233) -/

/-- Settles O60: with no word left and nothing in progress a step is a firing that does not latch, or nothing. -/
theorem endedRunIsFinal : Obligations.EndedRunIsFinal := by
  rintro s t fires ⟨hhost, hown, htp, hnofault⟩ hstep
  obtain ⟨-, hs⟩ := steps_of_stepWith hstep
  cases hs with
  | firing hie hfires =>
    rw [State.isr_of_not_tp (s := s.tickOn) htp, hie, hfires]
    exact ⟨⟨hhost, hown, htp, hnofault⟩, rfl, rfl, rfl, rfl, rfl, rfl, rfl, rfl, rfl⟩
  | noWord hno =>
    rw [hno]
    exact ⟨⟨hhost, hown, htp, hnofault⟩, rfl, rfl, rfl, rfl, rfl, rfl, rfl⟩
  | faulting w rest code _ _ hword | accepting w rest i _ _ hword => rw [hhost] at hword; cases hword
  | holding i u _ hbusy | performing i u op v _ hbusy => rw [hown] at hbusy; cases hbusy

/-! ### The owner after a firing that does not latch (R188) -/

/-- What a firing with TP = 0 may move: BLANK, the grayscale clock and the trace. -/
def State.withBlank (s : State) (a : Level) (g : Bool) (es : List Event) : State :=
  { s with blank := a, gsclkRun := g, trace := es }

/-- Equal but for BLANK, the grayscale clock and the trace. -/
def State.SameButBlank (s t : State) : Prop := ∃ a g es, t = s.withBlank a g es

theorem State.observe_withBlank (l : Line) (b : Bool) (s : State) (a : Level) (g : Bool) (es : List Event) :
    (s.withBlank a g es).observe l b = (s.observe l b).withBlank a g es := by
  unfold State.observe State.withBlank
  split
  · dsimp only; split
    · unfold State.takeBit; dsimp only; split <;> rfl
    · rfl
  · dsimp only; split
    · unfold State.latch; dsimp only; split <;> rfl
    · rfl
  · rfl

theorem State.SameButBlank.driveLine {s t : State} (h : s.SameButBlank t) (l : Line) (b : Bool) :
    (s.driveLine l b).SameButBlank (t.driveLine l b) := by
  obtain ⟨a, g, es, rfl⟩ := h
  refine ⟨if l = .blank then Level.ofBit b else a, g, es ++ [.set l b], ?_⟩
  rw [State.driveLine, State.observe_withBlank]
  cases l <;> rfl

/-- A micro-operation answers alike in two states equal but for BLANK, the clock and the trace. -/
theorem MicroOp.run_sameButBlank {op : MicroOp} {s t v : State} (h : s.SameButBlank t) (hrun : op.run s = .ok v) :
    ∃ w, op.run t = .ok w ∧ v.SameButBlank w := by
  have hsame := h
  obtain ⟨a, g, es, rfl⟩ := h
  cases op with
  | waitTp0 | ieset | lifeset => cases hrun; exact ⟨_, rfl, a, g, es, rfl⟩
  | gset b => cases hrun; exact ⟨_, rfl, a, b, es ++ [.gsclk b], rfl⟩
  | lset l b => cases hrun; exact ⟨_, rfl, hsame.driveLine l b⟩
  | sinv b => cases hrun; exact ⟨_, rfl, hsame.driveLine .sin b⟩
  | fset f b => cases hrun; cases f <;> exact ⟨_, rfl, a, g, es, rfl⟩
  | sinfb p =>
    simp only [MicroOp.run, State.driveSinFromFb] at hrun ⊢
    rw [show (s.withBlank a g es).memRead (p / 8) = s.memRead (p / 8) from rfl]
    split at hrun
    · cases hrun; exact ⟨_, rfl, hsame.driveLine .sin _⟩
    · cases hrun
  | acc x =>
    cases x with
    | clear =>
      rw [State.clearBody_ok hrun]
      exact ⟨_, State.clearBody_eq_zeroed (s.withBlank a g es), a, g, es, rfl⟩
    | setled c y =>
      obtain ⟨hbyte, rfl⟩ := State.fieldWrite_ok hrun
      exact ⟨_, State.fieldWrite_of_byte (s := s.withBlank a g es) _ hbyte, a, g, es, rfl⟩
    | getled c =>
      obtain ⟨f, hread, rfl⟩ := State.getledBody_ok hrun
      exact ⟨_, State.getledBody_of_read (s := s.withBlank a g es) hread, a, g, es, rfl⟩

theorem State.issue_withBlank (i : Instr) (s : State) (a : Level) (g : Bool) (es : List Event) :
    (s.withBlank a g es).issue i ((s.withBlank a g es).checksOf i) =
      (s.issue i (s.checksOf i)).withBlank a g es := by
  rw [show (s.withBlank a g es).checksOf i = s.checksOf i by cases i <;> rfl]
  unfold State.issue
  split <;> rfl

/-- A command's step answers alike in two states equal but for BLANK, the clock and the trace. -/
theorem exec_sameButBlank {i : Instr} {s s' t : State} (h : s.SameButBlank s') (hexec : exec i s = .next t) :
    ∃ t', exec i s' = .next t' ∧ t.SameButBlank t' := by
  have hsame := h
  obtain ⟨a, g, es, rfl⟩ := h
  obtain ⟨hfault, ⟨hown, rfl⟩ | ⟨u, op, v, hown, hop, ⟨hhold, -, rfl⟩ | ⟨hhold, hrun, rfl⟩⟩⟩ := exec_cases hexec
  · exact ⟨_, exec_of_idle (s := s.withBlank a g es) hfault hown, a, g, es, State.issue_withBlank i s a g es⟩
  · obtain ⟨rfl, htp⟩ := MicroOp.holds_eq_true hhold
    exact ⟨_, exec_of_wait (s := t.withBlank a g es) hfault hown hop htp, hsame⟩
  · obtain ⟨w, hw, a', g', es', rfl⟩ := MicroOp.run_sameButBlank hsame hrun
    have hwait : op = .waitTp0 → s.tp = false := by rintro rfl; exact hhold
    exact ⟨_, exec_of_run (s := s.withBlank a g es) hfault hown hop hwait hw, a', g', es', rfl⟩

/-- Settles O35: a firing with TP = 0 moves BLANK, the clock and the trace alone, and no command reads them. -/
theorem ownerResumesWhereItWas : Obligations.OwnerResumesWhereItWas := by
  intro s t i htp hexec
  have hsame : s.SameButBlank s.isr := ⟨_, _, _, State.isr_of_not_tp htp⟩
  obtain ⟨t', ht', a, g, es, rfl⟩ := exec_sameButBlank hsame hexec
  exact ⟨_, ht', rfl, rfl, rfl, rfl, rfl, rfl, rfl, rfl, rfl, rfl, rfl, rfl, rfl, rfl, rfl, rfl⟩

/-! ### Every state of the invariant steps (R130, R155) -/

/-- The operation the owner is at completes. -/
theorem State.Inv.exists_run {s : State} (h : s.Inv) {i : Instr} {u : Nat} {op : MicroOp} (hown : s.own = .busy i u)
    (hop : (programOf s.cfg.numDrivers i)[u]? = some op) : ∃ v, op.run s = .ok v := by
  refine MicroOp.exists_run (fun p hp => programOf_sinfb (hp ▸ hop)) fun a ha => ?_
  subst ha
  obtain ⟨rfl, -⟩ := programOf_acc hop
  exact (h.position _ u hown).1

/-- The owner is at an operation of its command. -/
theorem State.Inv.exists_op {s : State} (h : s.Inv) {i : Instr} {u : Nat} (hown : s.own = .busy i u) :
    ∃ op, (programOf s.cfg.numDrivers i)[u]? = some op :=
  ⟨_, List.getElem?_eq_getElem (h.position i u hown).2⟩

/-- Settles O42: a firing and an issue always answer, and the operation the owner is at holds or completes. -/
theorem invariantStatesAlwaysStep : Obligations.InvariantStatesAlwaysStep := by
  intro s fires h hfault
  cases hno : s.ie && fires with
  | true => exact ⟨_, by rw [stepWith_of_no_fault fires hfault, hno]; rfl⟩
  | false =>
    cases hown : s.own with
    | busy i u =>
      obtain ⟨op, hop⟩ := h.exists_op hown
      by_cases hhold : op = .waitTp0 ∧ s.tp = true
      · obtain ⟨rfl, htp⟩ := hhold
        exact ⟨_, stepWith_of_wait hfault hno hown hop htp⟩
      · obtain ⟨v, hrun⟩ := h.exists_run hown hop
        exact ⟨_, stepWith_of_run hfault hno hown hop (fun hw => eq_false_of_ne_true fun ht => hhold ⟨hw, ht⟩) hrun⟩
    | idle =>
      rw [stepWith_of_no_firing hfault hno]
      cases hhost : s.host with
      | nil => exact ⟨_, State.ownerStep_of_no_word (s := s.tickOn) hown hhost⟩
      | cons w rest =>
        cases hdec : decode w with
        | error e => exact ⟨_, State.ownerStep_of_error (s := s.tickOn) hown hhost hdec⟩
        | ok i =>
          exact ⟨_, (State.ownerStep_of_word (s := s.tickOn) hown hhost hdec).trans
            (exec_of_idle (s := { s.tickOn with host := rest }) hfault hown)⟩

/-! ### Under a fair schedule every command completes (R133, R189) -/

/-- The turns of a schedule, the first one apart. -/
theorem schedule_succ (fires : Nat → Bool) (k : Nat) :
    (List.range (k + 1)).map fires = fires 0 :: (List.range k).map fun j => fires (j + 1) := by
  rw [List.range_succ_eq_map, List.map_cons, List.map_map]
  rfl

theorem schedule_add (fires : Nat → Bool) (j k : Nat) :
    (List.range (j + k)).map fires = (List.range j).map fires ++ (List.range k).map fun m => fires (j + m) := by
  rw [List.range_add, List.map_append, List.map_map]
  rfl

/-- A fair schedule stays fair from any turn on. -/
theorem FairSchedule.shift {fires : Nat → Bool} (h : FairSchedule fires) (k : Nat) :
    FairSchedule fun m => fires (k + m) := by
  intro n
  obtain ⟨⟨a, ha, hfires⟩, b, hb, howner⟩ := h (k + n)
  exact ⟨⟨a - k, by omega, by simpa [Nat.add_sub_cancel' (show k ≤ a by omega)] using hfires⟩,
    b - k, by omega, by simpa [Nat.add_sub_cancel' (show k ≤ b by omega)] using howner⟩

/-- The first turn of a kind in a fair schedule. -/
theorem FairSchedule.first {fires : Nat → Bool} (h : FairSchedule fires) (b : Bool) :
    ∃ m, fires m = b ∧ ∀ j < m, fires j = !b := by
  have hex : ∃ m, fires m = b := by
    obtain ⟨⟨m, -, ht⟩, k, -, hf⟩ := h 0
    cases b
    · exact ⟨k, hf⟩
    · exact ⟨m, ht⟩
  refine ⟨Nat.find hex, Nat.find_spec hex, fun j hj => ?_⟩
  have := Nat.find_min hex hj
  cases hb : fires j <;> cases b <;> simp_all

/-- The block is at micro-step u of command i, without a fault, under the invariant. -/
structure State.At (s : State) (i : Instr) (u : Nat) : Prop where
  inv : s.Inv
  fault : s.fault = none
  own : s.own = .busy i u

theorem State.At.isr {s : State} {i : Instr} {u : Nat} (h : s.At i u) (hie : s.ie = true) : s.tickOn.isr.At i u :=
  ⟨(h.inv.bookkeeping s.fault s.host (s.tick + 1)).isr hie, (State.isr_fault _).trans h.fault,
    (State.isr_own _).trans h.own⟩

/-- While the interrupt fires the owner stays where it is, and after a firing no frame is pending. -/
theorem State.At.firings {s : State} {i : Instr} {u : Nat} (h : s.At i u) (hie : s.ie = true) (m : Nat)
    (fires : Nat → Bool) (hfires : ∀ j < m, fires j = true) :
    ∃ t, runWith ((List.range m).map fires) s = .next t ∧ t.At i u ∧ t.cfg = s.cfg ∧ t.ie = true ∧
      (s.tp = false → t.tp = false) := by
  induction m generalizing s fires with
  | zero => exact ⟨s, rfl, h, rfl, hie, fun htp => htp⟩
  | succ m ih =>
    have hstep : stepWith (fires 0) s = .next s.tickOn.isr := by
      rw [hfires 0 (by omega)]; exact stepWith_true_of_ie h.fault hie
    obtain ⟨t, hrun, hat, hcfg, hie', htp⟩ := ih (h.isr hie) ((State.isr_ie _).trans hie) (fun j => fires (j + 1))
      fun j hj => hfires (j + 1) (by omega)
    exact ⟨t, by rw [schedule_succ, runWith_cons hstep]; exact hrun, hat, hcfg.trans (State.isr_cfg _), hie',
      fun _ => htp (State.isr_tp _)⟩

/-- While the owner holds its turns change nothing but the tick. -/
theorem State.At.holds {s : State} {i : Instr} {u : Nat} (h : s.At i u)
    (hop : (programOf s.cfg.numDrivers i)[u]? = some .waitTp0) (htp : s.tp = true) (m : Nat) (fires : Nat → Bool)
    (hfires : ∀ j < m, fires j = false) :
    runWith ((List.range m).map fires) s = .next { s with tick := s.tick + m } := by
  induction m generalizing s fires with
  | zero => rfl
  | succ m ih =>
    have hstep : stepWith (fires 0) s = .next s.tickOn := by
      rw [hfires 0 (by omega)]; exact stepWith_of_wait h.fault (Bool.and_false _) h.own hop htp
    rw [schedule_succ, runWith_cons hstep, ih (s := s.tickOn)
      ⟨h.inv.bookkeeping s.fault s.host (s.tick + 1), h.fault, h.own⟩ hop htp (fun j => fires (j + 1))
      fun j hj => hfires (j + 1) (by omega), State.tickOn_tick, Nat.add_assoc, Nat.add_comm 1 m]
    rfl

/-- Some first turns of the schedule take the owner past its micro-step. -/
def State.Advances (s : State) (i : Instr) (u : Nat) (fires : Nat → Bool) : Prop :=
  ∃ k t, runWith ((List.range k).map fires) s = .next t ∧ t.Inv ∧ t.fault = none ∧ t.cfg = s.cfg ∧
    t.own = ownAfter i (programOf s.cfg.numDrivers i).length u

theorem State.Advances.after {s t : State} {i : Instr} {u k : Nat} {fires : Nat → Bool}
    (hrun : runWith ((List.range k).map fires) s = .next t) (hcfg : t.cfg = s.cfg)
    (h : t.Advances i u fun m => fires (k + m)) : s.Advances i u fires := by
  obtain ⟨j, x, hx, hinv, hfault, hxcfg, hown⟩ := h
  exact ⟨k + j, x, by rw [schedule_add, runWith_append hrun, hx], hinv, hfault, hxcfg.trans hcfg, hcfg ▸ hown⟩

/-- The owner's turn at an operation that does not hold takes it past its micro-step. -/
theorem State.At.advances_of_turn {s : State} {i : Instr} {u : Nat} (h : s.At i u) {fires : Nat → Bool}
    (hno : (s.ie && fires 0) = false)
    (hwait : (programOf s.cfg.numDrivers i)[u]? = some .waitTp0 → s.tp = false) : s.Advances i u fires := by
  obtain ⟨op, hop⟩ := h.inv.exists_op h.own
  obtain ⟨v, hrun⟩ := h.inv.exists_run h.own hop
  obtain ⟨hcfg, -, hfault, -, -⟩ := MicroOp.run_ok hrun
  have hstep := stepWith_of_run h.fault hno h.own hop (fun hw => hwait (hw ▸ hop)) hrun
  exact ⟨1, _, by rw [schedule_succ, runWith_cons hstep]; rfl, h.inv.stepWith hstep, hfault.trans h.fault, hcfg, rfl⟩

/-- Where the owner's operation does not hold, its next turn takes it on. -/
theorem State.At.advances_of_free {s : State} {i : Instr} {u : Nat} (h : s.At i u) {fires : Nat → Bool}
    (hfair : FairSchedule fires) (hwait : (programOf s.cfg.numDrivers i)[u]? = some .waitTp0 → s.tp = false) :
    s.Advances i u fires := by
  cases hie : s.ie with
  | false => exact h.advances_of_turn (by rw [hie]; rfl) hwait
  | true =>
    obtain ⟨m, hm, hbefore⟩ := hfair.first false
    obtain ⟨t, hrun, hat, hcfg, -, htp⟩ := h.firings hie m fires hbefore
    refine .after hrun hcfg (hat.advances_of_turn ?_ ?_)
    · simp [hm]
    · rw [hcfg]
      exact fun hop => htp (hwait hop)

/-- R133: under a fair schedule the owner gets past every micro-step: at a wait the next firing lifts the hold. -/
theorem State.At.advances {s : State} {i : Instr} {u : Nat} (h : s.At i u) {fires : Nat → Bool}
    (hfair : FairSchedule fires) : s.Advances i u fires := by
  by_cases hhold : (programOf s.cfg.numDrivers i)[u]? = some .waitTp0 ∧ s.tp = true
  · obtain ⟨hop, htp⟩ := hhold
    obtain ⟨m, hm, hbefore⟩ := hfair.first true
    have hie := h.inv.ie_of_tp htp
    have hheld := h.holds hop htp m fires hbefore
    have hat : ({ s with tick := s.tick + m } : State).At i u :=
      ⟨h.inv.bookkeeping s.fault s.host (s.tick + m), h.fault, h.own⟩
    have hfiring : runWith ((List.range 1).map fun j => fires (m + j)) { s with tick := s.tick + m } =
        .next ({ s with tick := s.tick + m } : State).tickOn.isr := by
      rw [schedule_succ, Nat.add_zero, hm, runWith_cons (stepWith_true_of_ie hat.fault hie)]
      rfl
    exact .after hheld rfl <| .after hfiring (State.isr_cfg _) <|
      (hat.isr hie).advances_of_free ((hfair.shift m).shift 1) fun _ => State.isr_tp _
  · exact h.advances_of_free hfair fun hop => eq_false_of_ne_true fun htp => hhold ⟨hop, htp⟩

/-- Settles O54: each micro-step is passed, and there are finitely many. -/
theorem commandsCompleteUnderFairSchedules : Obligations.CommandsCompleteUnderFairSchedules := by
  intro s i u fires h hfault hown hfair
  generalize hleft : (programOf s.cfg.numDrivers i).length - u = left
  induction left generalizing s u fires with
  | zero => have := (h.position i u hown).2; omega
  | succ left ih =>
    obtain ⟨k, t, hrun, hinv, htfault, hcfg, htown⟩ := State.At.advances ⟨h, hfault, hown⟩ hfair
    obtain ⟨-, hafter⟩ | ⟨-, hafter⟩ := ownAfter_cases (i := i) (h.position i u hown).2
    · obtain ⟨j, x, hx, hidle, hxfault⟩ := ih t (u + 1) (fun m => fires (k + m)) hinv htfault (htown.trans hafter)
        (hfair.shift k) (by rw [hcfg]; omega)
      exact ⟨k + j, x, by rw [schedule_add, runWith_append hrun, hx], hidle, hxfault⟩
    · exact ⟨k, t, hrun, htown.trans hafter, htfault⟩

end Sys2Proof.Machine

/-! PROOFS. Whole runs with no firing in them: DISPLAY, SETGLOBALDC and INIT (R130, R140, R170, R177). -/

namespace Sys2Proof.Machine

/-! ### One owner step of a run -/

theorem ownerRun_one {s t : State} (h : stepWith false s = .next t) : ownerRun 1 s = .next t :=
  runWith_cons h

theorem ownerRun_trans {j k : Nat} {s t x : State} (h : ownerRun j s = .next t) (h' : ownerRun k t = .next x) :
    ownerRun (j + k) s = .next x :=
  (ownerRun_add h).trans h'

/-- The owner's step performs an operation and moves on. -/
theorem ownerRun_op {s v : State} {i : Instr} {u w : Nat} {op : MicroOp} (hfault : s.fault = none)
    (hown : s.own = .busy i u) (hop : (programOf s.cfg.numDrivers i)[u]? = some op)
    (hwait : op = .waitTp0 → s.tp = false) (hrun : op.run s = .ok v) (hnext : u + 1 = w)
    (hlen : w < (programOf s.cfg.numDrivers i).length) :
    ownerRun 1 s = .next { v with own := .busy i w, tick := s.tick + 1 } := by
  rw [ownerRun_one (stepWith_of_run hfault (Bool.and_false _) hown hop hwait hrun), ownAfter, hnext, if_pos hlen]

/-! ### A line write, as a whole state (R200) -/

theorem State.driveLine_sclk_rise {s : State} {b : Bool} (hsclk : s.sclk = .low) (hsin : s.sin = Level.ofBit b) :
    s.driveLine .sclk true =
      { s with sclk := .high, sr := s.sr ++ [b], trace := s.trace ++ [.set .sclk true] } := by
  rw [State.driveLine, State.observe_sclk_rise hsclk hsin]
  rfl

theorem State.driveLine_xlat_dc {s : State} (hxlat : s.xlat = .low) (hvprg : s.vprg = .high)
    (hlen : s.cfg.dcBits ≤ s.sr.length) :
    s.driveLine .xlat true =
      { s with xlat := .high, liveDc := lastBits s.cfg.dcBits s.sr, trace := s.trace ++ [.set .xlat true] } := by
  rw [State.driveLine, State.observe_xlat_dc hxlat hvprg hlen]
  rfl

/-! ### Bits sent (R124) -/

/-- The state after a list of bits is sent: SIN at the last of them, all taken by the chain, three events each. -/
def State.sendBits (bits : List Bool) (s : State) : State :=
  { s with
    sin := (bits.getLast?.map Level.ofBit).getD s.sin
    sr := s.sr ++ bits
    trace := s.trace ++ bitEvents bits }

theorem State.sendBits_nil (s : State) : s.sendBits [] = s := by simp [State.sendBits, bitEvents]

theorem bitEvents_append (a b : List Bool) : bitEvents (a ++ b) = bitEvents a ++ bitEvents b := List.flatMap_append

theorem length_bitEvents (bits : List Bool) : (bitEvents bits).length = 3 * bits.length :=
  length_flatMap_block bits _ 3 fun _ => rfl

/-- Driving SIN to the bit does the same in either form (R52, R120). -/
theorem MicroOp.DrivesSin.run {op : MicroOp} {b : Bool} {s : State} (h : op.DrivesSin s.fb b)
    (hbit : ∀ p, op = .sinfb p → p < 192 * s.cfg.numDrivers) : op.run s = .ok (s.driveLine .sin b) := by
  obtain rfl | ⟨p, rfl, rfl⟩ := h
  · rfl
  · exact State.driveSinFromFb_of_lt (hbit p rfl)

/-- The three owner steps of one bit. -/
theorem ownerRun_triple {s : State} {i : Instr} {u : Nat} {b : Bool} {sin : MicroOp} (hfault : s.fault = none)
    (hown : s.own = .busy i u) (hsclk : s.sclk = .low) (hdrives : sin.DrivesSin s.fb b)
    (h0 : (programOf s.cfg.numDrivers i)[u]? = some sin)
    (h1 : (programOf s.cfg.numDrivers i)[u + 1]? = some (.lset .sclk true))
    (h2 : (programOf s.cfg.numDrivers i)[u + 2]? = some (.lset .sclk false))
    (hlen : u + 3 < (programOf s.cfg.numDrivers i).length) :
    ownerRun 3 s = .next { s.sendBits [b] with own := .busy i (u + 3), tick := s.tick + 3 } := by
  have hnotWait : sin = .waitTp0 → s.tp = false := by
    rintro rfl
    obtain hw | ⟨p, hw, -⟩ := hdrives <;> cases hw
  have hset := ownerRun_op hfault hown h0 hnotWait (hdrives.run fun p hp => programOf_sinfb (hp ▸ h0)) rfl (by omega)
  have hrise := ownerRun_op (s := { s.driveLine .sin b with own := .busy i (u + 1), tick := s.tick + 1 })
    (v := { s with
      sin := Level.ofBit b, sclk := .high, sr := s.sr ++ [b], trace := s.trace ++ [.set .sin b] ++ [.set .sclk true]
      own := .busy i (u + 1), tick := s.tick + 1 })
    hfault rfl h1 (by simp) (congrArg Except.ok (State.driveLine_sclk_rise hsclk rfl)) (w := u + 2) rfl
    (by rw [State.driveLine_cfg]; omega)
  have hfall := ownerRun_op (s := { s with
      sin := Level.ofBit b, sclk := .high, sr := s.sr ++ [b], trace := s.trace ++ [.set .sin b] ++ [.set .sclk true]
      own := .busy i (u + 2), tick := s.tick + 2 })
    hfault rfl h2 (by simp) rfl (w := u + 3) rfl hlen
  refine (ownerRun_trans (ownerRun_trans hset hrise) hfall).trans ?_
  simp [State.sendBits, bitEvents, State.driveLine, State.observe, State.setLine, State.emit, Level.ofBit, hsclk]

/-- One more bit sent. -/
theorem State.sendBits_concat (bits : List Bool) (b : Bool) (s : State) :
    s.sendBits (bits ++ [b]) = (s.sendBits bits).sendBits [b] := by
  simp [State.sendBits, bitEvents_append]

/-- An operation of a part, at its place in the command. -/
theorem ShiftPart.getElem? {n base j : Nat} {i : Instr} {part : List MicroOp} {op : MicroOp}
    (h : ShiftPart n i part base) (hop : part[j]? = some op) : (programOf n i)[base + j]? = some op :=
  (h.standsAt _ (List.getElem?_eq_some_iff.mp hop).1).trans hop

/-- A part ends within its command. -/
theorem ShiftPart.length_le {n base : Nat} {i : Instr} {part : List MicroOp} (h : ShiftPart n i part base) :
    base + part.length ≤ (programOf n i).length := by
  cases h with
  | display hpart =>
    rw [length_displayProgram]
    cases hpart with
    | display => rw [programOf, length_displayProgram]; omega
    | init => rw [programOf, length_initProgram]; omega
  | dc hpart =>
    rw [length_dcProgram]
    cases hpart with
    | setglobaldc => rw [programOf, length_dcProgram]; omega
    | init => rw [programOf, length_initProgram]; omega

/-- The owner steps of the first k bits of a part of a command. -/
theorem ownerRun_bits {s : State} {i : Instr} {part : List MicroOp} {base K : Nat} {bit : Nat → Bool}
    (hpart : ShiftPart s.cfg.numDrivers i part base) (hbits : SendsBits s.fb part K bit)
    (hK : 2 + 3 * K < part.length) (hlen : base + part.length ≤ (programOf s.cfg.numDrivers i).length)
    (hfault : s.fault = none) (hown : s.own = .busy i (base + 2)) (hsclk : s.sclk = .low) {k : Nat} (hk : k ≤ K) :
    ownerRun (3 * k) s = .next { s.sendBits ((List.range k).map bit) with
      own := .busy i (base + (2 + 3 * k)), tick := s.tick + 3 * k } := by
  induction k with
  | zero =>
    rw [List.range_zero, List.map_nil, State.sendBits_nil, ← hown]
    rfl
  | succ k ih =>
    obtain ⟨sin, hdrives, h0, h1, h2⟩ := hbits.ops hk
    have hone := ownerRun_triple (s := { s.sendBits ((List.range k).map bit) with
        own := .busy i (base + (2 + 3 * k)), tick := s.tick + 3 * k })
      hfault rfl hsclk hdrives (hpart.getElem? h0) (hpart.getElem? h1) (hpart.getElem? h2)
      (by show _ < (programOf s.cfg.numDrivers i).length; omega)
    refine (ownerRun_trans (ih (by omega)) hone).trans ?_
    rw [List.range_succ, List.map_append, List.map_singleton, State.sendBits_concat]
    simp only [State.sendBits]
    rw [show base + (2 + 3 * k) + 3 = base + (2 + 3 * (k + 1)) by omega,
      show s.tick + 3 * k + 3 = s.tick + 3 * (k + 1) by omega]

/-- A part begins with a wait and a write of VPRG; the owner steps of these two. -/
theorem ownerRun_start {s : State} {i : Instr} {part : List MicroOp} {base : Nat} {b : Bool}
    (hpart : ShiftPart s.cfg.numDrivers i part base) (h0 : part[0]? = some .waitTp0)
    (h1 : part[1]? = some (.lset .vprg b)) (hlen : 2 < part.length) (hfault : s.fault = none)
    (hown : s.own = .busy i base) (htp : s.tp = false) :
    ownerRun 2 s = .next { s with
      vprg := Level.ofBit b
      trace := s.trace ++ [.set .vprg b]
      own := .busy i (base + 2)
      tick := s.tick + 2 } := by
  have hend := hpart.length_le
  have hwait := ownerRun_op hfault hown (hpart.getElem? h0) (fun _ => htp) rfl (w := base + 1) rfl (by omega)
  have hmode := ownerRun_op (s := { s with own := .busy i (base + 1), tick := s.tick + 1 }) hfault rfl
    (hpart.getElem? h1) (by simp) rfl (w := base + 2) rfl (Nat.lt_of_lt_of_le (by omega) hend)
  exact ownerRun_trans hwait hmode

/-! ### A display (R129, R130) -/

/-- The state a display leaves, but for the owner's position and the tick. -/
def State.displayed (s : State) : State :=
  { ({ s with vprg := .low, trace := s.trace ++ [.set .vprg false] } : State).sendBits s.frame with tp := true }

/-- The owner steps of a display. -/
theorem ownerRun_display {s : State} {i : Instr} {base : Nat} (hdisplay : DisplayPart s.cfg.numDrivers i base)
    (hfault : s.fault = none) (hown : s.own = .busy i base) (htp : s.tp = false) (hsclk : s.sclk = .low) :
    ownerRun (576 * s.cfg.numDrivers + 3) s = .next { s.displayed with
      own := ownAfter i (programOf s.cfg.numDrivers i).length (base + (576 * s.cfg.numDrivers + 2))
      tick := s.tick + (576 * s.cfg.numDrivers + 3) } := by
  have hpart : ShiftPart s.cfg.numDrivers i (displayProgram s.cfg.numDrivers) base := .display hdisplay
  have hlen := length_displayProgram s.cfg.numDrivers
  have hK : 2 + 3 * (192 * s.cfg.numDrivers) < (displayProgram s.cfg.numDrivers).length := by omega
  have hindex : 2 + 3 * (192 * s.cfg.numDrivers) = 576 * s.cfg.numDrivers + 2 := by omega
  have hstart := ownerRun_start hpart (displayProgram_zero _) (displayProgram_one _) (by omega) hfault hown htp
  have hbits := ownerRun_bits (s := { s with
      vprg := .low, trace := s.trace ++ [.set .vprg false], own := .busy i (base + 2), tick := s.tick + 2 })
    hpart (displayProgram_sendsBits s.fb s.cfg.numDrivers) hK hpart.length_le hfault rfl hsclk (Nat.le_refl _)
  have hlast := ownerRun_one (stepWith_of_run (s := { ({ s with
        vprg := .low, trace := s.trace ++ [.set .vprg false] } : State).sendBits s.frame with
      own := .busy i (base + (576 * s.cfg.numDrivers + 2)), tick := s.tick + (576 * s.cfg.numDrivers + 2) })
    hfault (Bool.and_false _) rfl (hpart.getElem? (displayProgram_last _)) (by simp) rfl)
  rw [hindex] at hbits
  have hrun := ownerRun_trans hstart hbits
  rw [show s.tick + 2 + 3 * (192 * s.cfg.numDrivers) = s.tick + (576 * s.cfg.numDrivers + 2) by omega,
    hindex] at hrun
  exact (ownerRun_trans hrun hlast :)

/-- Settles O23: the display's bits are the frame's, the last of them buffer bit 192N - 1. -/
theorem displayShiftsTheWholeFrame : Obligations.DisplayShiftsTheWholeFrame := by
  intro s hlegal hfault hown htp hsclk
  have hn := Config.one_le_numDrivers hlegal
  have hlast : s.frame.getLast? = some (Memory.bit s.fb (192 * s.cfg.numDrivers - 1)) := by
    rw [State.frame, Config.frameBits, List.getLast?_map, List.getLast?_range, if_neg (by omega)]
    rfl
  have hidle : ownAfter .display (programOf s.cfg.numDrivers .display).length (0 + (576 * s.cfg.numDrivers + 2)) =
      .idle := by
    rw [programOf, length_displayProgram, ownAfter, if_neg (by omega)]
  rw [ownerRun_display .display hfault hown htp hsclk, hidle]
  simp [State.displayed, State.sendBits, hlast]

/-! ### A dot-correction load (R140, R141) -/

/-- The state a dot-correction load leaves, but for the owner's position and the tick. -/
def State.dcLoaded (v : Nat) (s : State) : State :=
  let sent := ({ s with trace := s.trace ++ [.set .vprg true] } : State).sendBits (dcStream s.cfg.numDrivers v)
  { sent with
    vprg := .low
    np := true
    liveDc := dcStream s.cfg.numDrivers v
    trace := sent.trace ++ [.set .xlat true, .set .xlat false, .set .vprg false] }

/-- The owner steps that end a dot-correction load: the XLAT pulse, VPRG back to 0, NP. -/
theorem ownerRun_dc_tail {s : State} {i : Instr} {v base : Nat} (hdc : DcPart i v base) (hfault : s.fault = none)
    (hown : s.own = .busy i (base + (288 * s.cfg.numDrivers + 2))) (hxlat : s.xlat = .low) (hvprg : s.vprg = .high)
    (hsr : s.cfg.dcBits ≤ s.sr.length) :
    ownerRun 4 s = .next { s with
      vprg := .low
      np := true
      liveDc := lastBits s.cfg.dcBits s.sr
      trace := s.trace ++ [.set .xlat true, .set .xlat false, .set .vprg false]
      own := ownAfter i (programOf s.cfg.numDrivers i).length (base + (288 * s.cfg.numDrivers + 5))
      tick := s.tick + 4 } := by
  have hpart : ShiftPart s.cfg.numDrivers i (dcProgram s.cfg.numDrivers v) base := .dc hdc
  have hend := hpart.length_le
  rw [length_dcProgram] at hend
  have hlatch := ownerRun_op hfault hown (hpart.getElem? (dcProgram_tail _ v 0)) (by simp)
    (congrArg Except.ok (State.driveLine_xlat_dc hxlat hvprg hsr)) (w := base + (288 * s.cfg.numDrivers + 3)) rfl
    (by omega)
  have hfall := ownerRun_op (s := { s with
      xlat := .high, liveDc := lastBits s.cfg.dcBits s.sr, trace := s.trace ++ [.set .xlat true]
      own := .busy i (base + (288 * s.cfg.numDrivers + 3)), tick := s.tick + 1 })
    hfault rfl (hpart.getElem? (dcProgram_tail _ v 1)) (by simp) rfl (w := base + (288 * s.cfg.numDrivers + 4)) rfl
    (Nat.lt_of_lt_of_le (by omega) hend)
  have hmode := ownerRun_op (s := { s with
      xlat := .low, liveDc := lastBits s.cfg.dcBits s.sr
      trace := s.trace ++ [.set .xlat true] ++ [.set .xlat false]
      own := .busy i (base + (288 * s.cfg.numDrivers + 4)), tick := s.tick + 2 })
    hfault rfl (hpart.getElem? (dcProgram_tail _ v 2)) (by simp) rfl (w := base + (288 * s.cfg.numDrivers + 5)) rfl
    (Nat.lt_of_lt_of_le (by omega) hend)
  have hlast := ownerRun_one (stepWith_of_run (s := { s with
      xlat := .low, vprg := .low, liveDc := lastBits s.cfg.dcBits s.sr
      trace := s.trace ++ [.set .xlat true] ++ [.set .xlat false] ++ [.set .vprg false]
      own := .busy i (base + (288 * s.cfg.numDrivers + 5)), tick := s.tick + 3 })
    hfault (Bool.and_false _) rfl (hpart.getElem? (dcProgram_tail _ v 3)) (by simp) rfl)
  refine (ownerRun_trans (ownerRun_trans (ownerRun_trans hlatch hfall) hmode) hlast).trans ?_
  simp [State.setFlag, hxlat]

/-- The owner steps of a dot-correction load. -/
theorem ownerRun_dc {s : State} {i : Instr} {v base : Nat} (hdc : DcPart i v base)
    (hfault : s.fault = none) (hown : s.own = .busy i base) (htp : s.tp = false) (hsclk : s.sclk = .low)
    (hxlat : s.xlat = .low) :
    ownerRun (288 * s.cfg.numDrivers + 6) s = .next { s.dcLoaded v with
      own := ownAfter i (programOf s.cfg.numDrivers i).length (base + (288 * s.cfg.numDrivers + 5))
      tick := s.tick + (288 * s.cfg.numDrivers + 6) } := by
  have hpart : ShiftPart s.cfg.numDrivers i (dcProgram s.cfg.numDrivers v) base := .dc hdc
  have hlen := length_dcProgram s.cfg.numDrivers v
  have hK : 2 + 3 * (96 * s.cfg.numDrivers) < (dcProgram s.cfg.numDrivers v).length := by omega
  have hindex : 2 + 3 * (96 * s.cfg.numDrivers) = 288 * s.cfg.numDrivers + 2 := by omega
  have hbits := ownerRun_bits (s := { s with
      vprg := .high, trace := s.trace ++ [.set .vprg true], own := .busy i (base + 2), tick := s.tick + 2 })
    hpart (dcProgram_sendsBits s.fb s.cfg.numDrivers v) hK hpart.length_le hfault rfl hsclk (Nat.le_refl _)
  rw [← dcStream_eq, hindex] at hbits
  have hrun := ownerRun_trans
    (ownerRun_start hpart (dcProgram_zero _ v) (dcProgram_one _ v) (by omega) hfault hown htp) hbits
  rw [show s.tick + 2 + 3 * (96 * s.cfg.numDrivers) = s.tick + (288 * s.cfg.numDrivers + 2) by omega, hindex] at hrun
  have hbitsLen : (dcStream s.cfg.numDrivers v).length = s.cfg.dcBits := length_dcStream _ v
  have hlast := lastBits_append s.sr (dcStream s.cfg.numDrivers v)
  have htail := ownerRun_dc_tail (s := { ({ s with
        vprg := .high, trace := s.trace ++ [.set .vprg true] } : State).sendBits (dcStream s.cfg.numDrivers v) with
      own := .busy i (base + (288 * s.cfg.numDrivers + 2)), tick := s.tick + (288 * s.cfg.numDrivers + 2) })
    hdc hfault rfl hxlat rfl (by simp [State.sendBits, hbitsLen])
  rw [hbitsLen] at hlast
  refine (ownerRun_trans hrun htail).trans ?_
  simp only [State.sendBits, State.dcLoaded, hlast]
  rfl

theorem getLast?_dcStream {n : Nat} (v : Nat) (hn : 1 ≤ n) : (dcStream n v).getLast? = some (v.testBit 0) := by
  rw [dcStream_eq, List.getLast?_map, List.getLast?_range, if_neg (by omega), Option.map_some,
    show 5 - (96 * n - 1) % 6 = 0 by omega]

/-- Settles O25: the last bit sent is bit 0 of v. -/
theorem setglobaldcLoadsEveryChannel : Obligations.SetglobaldcLoadsEveryChannel := by
  intro s v hlegal hfault hown htp hsclk hxlat
  have hlast := getLast?_dcStream v (Config.one_le_numDrivers hlegal)
  have hidle : ownAfter (.setglobaldc v) (programOf s.cfg.numDrivers (.setglobaldc v)).length
      (0 + (288 * s.cfg.numDrivers + 5)) = .idle := by
    rw [programOf, length_dcProgram, ownAfter, if_neg (by omega)]
  rw [ownerRun_dc (.setglobaldc v) hfault hown htp hsclk hxlat, hidle]
  simp [State.dcLoaded, State.sendBits, hlast]

/-! ### INIT (R170, R177) -/

/-- The state INIT's line writes leave, but for the owner's position and the tick (R171). -/
def State.pinned (s : State) : State :=
  { s with
    sclk := .low
    sin := .low
    xlat := .low
    vprg := .low
    blank := .high
    trace := s.trace ++
      [.set .sclk false, .set .sin false, .set .xlat false, .set .vprg false, .set .blank true] }

theorem ownerRun_pins {s : State} (hfault : s.fault = none) (hown : s.own = .busy .init 0) :
    ownerRun 5 s = .next { s.pinned with own := .busy .init 5, tick := s.tick + 5 } := by
  have hlen : 5 < (programOf s.cfg.numDrivers .init).length := by rw [programOf, length_initProgram]; omega
  have hat : ∀ k < 5, (programOf s.cfg.numDrivers .init)[k]? = initPins[k]? := initProgram_pins _
  have hsclk := ownerRun_op hfault hown (hat 0 (by omega)) (by simp) rfl (w := 1) rfl (by omega)
  have hsin := ownerRun_op (s := { s with
      sclk := .low, trace := s.trace ++ [.set .sclk false], own := .busy .init 1, tick := s.tick + 1 })
    hfault rfl (hat 1 (by omega)) (by simp) rfl (w := 2) rfl (Nat.lt_of_lt_of_le (by omega) hlen)
  have hxlat := ownerRun_op (s := { s with
      sclk := .low, sin := .low, trace := s.trace ++ [.set .sclk false] ++ [.set .sin false]
      own := .busy .init 2, tick := s.tick + 2 })
    hfault rfl (hat 2 (by omega)) (by simp) rfl (w := 3) rfl (Nat.lt_of_lt_of_le (by omega) hlen)
  have hvprg := ownerRun_op (s := { s with
      sclk := .low, sin := .low, xlat := .low
      trace := s.trace ++ [.set .sclk false] ++ [.set .sin false] ++ [.set .xlat false]
      own := .busy .init 3, tick := s.tick + 3 })
    hfault rfl (hat 3 (by omega)) (by simp) rfl (w := 4) rfl (Nat.lt_of_lt_of_le (by omega) hlen)
  have hblank := ownerRun_op (s := { s with
      sclk := .low, sin := .low, xlat := .low, vprg := .low
      trace := s.trace ++ [.set .sclk false] ++ [.set .sin false] ++ [.set .xlat false] ++ [.set .vprg false]
      own := .busy .init 4, tick := s.tick + 4 })
    hfault rfl (hat 4 (by omega)) (by simp) rfl (w := 5) rfl hlen
  refine (ownerRun_trans (ownerRun_trans (ownerRun_trans (ownerRun_trans hsclk hsin) hxlat) hvprg) hblank).trans ?_
  simp [State.pinned, State.driveLine, State.observe, State.setLine, State.emit, Level.ofBit]

/-- The state INIT leaves, but for the owner's position and the tick (R170). -/
def State.initialised (s : State) : State :=
  { ({ s.pinned.dcLoaded 63 with
        gsclkRun := true, ie := true, trace := (s.pinned.dcLoaded 63).trace ++ [.gsclk true] } : State).displayed with
    life := .ready }

/-- The owner steps of INIT's line writes and of its dot-correction load (R171, R172). -/
theorem ownerRun_init_dc {s : State} (hfault : s.fault = none) (hown : s.own = .busy .init 0) (htp : s.tp = false) :
    ownerRun (288 * s.cfg.numDrivers + 11) s = .next { s.pinned.dcLoaded 63 with
      own := .busy .init (288 * s.cfg.numDrivers + 11), tick := s.tick + (288 * s.cfg.numDrivers + 11) } := by
  have hdc := ownerRun_dc (s := { s.pinned with own := .busy .init 5, tick := s.tick + 5 }) .init hfault rfl htp rfl rfl
  have hgoesOn : ownAfter .init (programOf s.cfg.numDrivers .init).length (5 + (288 * s.cfg.numDrivers + 5)) =
      .busy .init (288 * s.cfg.numDrivers + 11) := by
    rw [programOf, length_initProgram, ownAfter, if_pos (by omega)]
    congr 1
    omega
  rw [show 288 * s.cfg.numDrivers + 11 = 5 + (288 * s.cfg.numDrivers + 6) by omega]
  refine (ownerRun_trans (ownerRun_pins hfault hown) hdc).trans ?_
  show Host.Outcome.next { s.pinned.dcLoaded 63 with
    own := ownAfter .init (programOf s.cfg.numDrivers .init).length (5 + (288 * s.cfg.numDrivers + 5))
    tick := s.tick + 5 + (288 * s.cfg.numDrivers + 6) } = _
  rw [hgoesOn, Nat.add_assoc s.tick, show 5 + (288 * s.cfg.numDrivers + 6) = 288 * s.cfg.numDrivers + 11 by omega]

/-- The owner steps of INIT. -/
theorem ownerRun_init {s : State} (hfault : s.fault = none) (hown : s.own = .busy .init 0) (htp : s.tp = false) :
    ownerRun (864 * s.cfg.numDrivers + 17) s = .next { s.initialised with
      own := .idle, tick := s.tick + (864 * s.cfg.numDrivers + 17) } := by
  have hlen : (programOf s.cfg.numDrivers .init).length = 864 * s.cfg.numDrivers + 17 := length_initProgram _
  have hclock := ownerRun_op (s := { s.pinned.dcLoaded 63 with
      own := .busy .init (288 * s.cfg.numDrivers + 11), tick := s.tick + (288 * s.cfg.numDrivers + 11) })
    hfault rfl (initProgram_timers _) (by simp) rfl (w := 288 * s.cfg.numDrivers + 12) rfl
    (Nat.lt_of_lt_of_eq (by omega) hlen.symm)
  have henable := ownerRun_op (s := { s.pinned.dcLoaded 63 with
      gsclkRun := true, trace := (s.pinned.dcLoaded 63).trace ++ [.gsclk true]
      own := .busy .init (288 * s.cfg.numDrivers + 12), tick := s.tick + (288 * s.cfg.numDrivers + 12) })
    hfault rfl (initProgram_interrupt _) (by simp) rfl (w := 288 * s.cfg.numDrivers + 13) rfl
    (Nat.lt_of_lt_of_eq (by omega) hlen.symm)
  have hdisplay := ownerRun_display (s := { s.pinned.dcLoaded 63 with
      gsclkRun := true, ie := true, trace := (s.pinned.dcLoaded 63).trace ++ [.gsclk true]
      own := .busy .init (288 * s.cfg.numDrivers + 13), tick := s.tick + (288 * s.cfg.numDrivers + 13) })
    .init hfault rfl htp rfl
  have hgoesOn : ownAfter .init (programOf s.cfg.numDrivers .init).length
      (288 * s.cfg.numDrivers + 13 + (576 * s.cfg.numDrivers + 2)) = .busy .init (864 * s.cfg.numDrivers + 16) := by
    rw [hlen, ownAfter, if_pos (by omega)]
    congr 1
    omega
  have hready := ownerRun_one (stepWith_of_run (s := { s.initialised with
      life := s.life
      own := ownAfter .init (programOf s.cfg.numDrivers .init).length
        (288 * s.cfg.numDrivers + 13 + (576 * s.cfg.numDrivers + 2))
      tick := s.tick + (288 * s.cfg.numDrivers + 13) + (576 * s.cfg.numDrivers + 3) })
    hfault (Bool.and_false _) hgoesOn (initProgram_last _) (by simp) rfl)
  have hrun := ownerRun_trans (ownerRun_trans (ownerRun_trans (ownerRun_trans
    (ownerRun_init_dc hfault hown htp) hclock) henable) hdisplay) hready
  have hidle : ownAfter .init (programOf s.cfg.numDrivers .init).length (864 * s.cfg.numDrivers + 16) = .idle := by
    rw [hlen, ownAfter, if_neg (by omega)]
  rw [show 864 * s.cfg.numDrivers + 17 =
    288 * s.cfg.numDrivers + 11 + 1 + 1 + (576 * s.cfg.numDrivers + 3) + 1 by omega]
  refine hrun.trans ?_
  show Host.Outcome.next { s.initialised with
    own := ownAfter .init (programOf s.cfg.numDrivers .init).length (864 * s.cfg.numDrivers + 16)
    tick := s.tick + (288 * s.cfg.numDrivers + 13) + (576 * s.cfg.numDrivers + 3) + 1 } = _
  rw [hidle, show s.tick + (288 * s.cfg.numDrivers + 13) + (576 * s.cfg.numDrivers + 3) + 1 =
    s.tick + (288 * s.cfg.numDrivers + 11 + 1 + 1 + (576 * s.cfg.numDrivers + 3) + 1) by omega]

theorem dcStream_max (n : Nat) : dcStream n 63 = List.replicate (96 * n) true := by
  have hbit : ∀ q, Nat.testBit 63 (5 - q % 6) = true := by
    intro q
    have h : ∀ j < 6, Nat.testBit 63 j = true := by decide
    exact h _ (by omega)
  simp [dcStream_eq, hbit, List.map_const']

theorem State.frame_of_empty {s : State} (h : s.fb = []) : s.frame = List.replicate s.cfg.frameBits false := by
  have hbit : ∀ p, Memory.bit [] p = false := by
    intro p
    simp [Memory.bit, bitOfByte, Memory.read, Memory.unlisted]
  simp [State.frame, h, funext hbit]

/-- Settles O27: INIT issued, then its micro-steps from the state after create. -/
theorem initBringsTheBlockToOperation : Obligations.InitBringsTheBlockToOperation := by
  intro c rest hlegal
  have hn := Config.one_le_numDrivers hlegal
  have hissue := ownerRun_one (stepWith_of_accepts (s := { State.initial c with host := 0x10000000 :: rest })
    rfl rfl rfl rfl (i := .init) rfl rfl)
  have hinit := ownerRun_init (s := { State.initial c with host := rest, own := .busy .init 0, tick := 1 }) rfl rfl rfl
  rw [show 864 * c.numDrivers + 18 = 1 + (864 * c.numDrivers + 17) by omega]
  refine ⟨_, ownerRun_trans hissue hinit, ?_⟩
  have hframe : ∀ s : State, s.cfg = c → s.fb = [] → s.frame = List.replicate (192 * c.numDrivers) false := by
    rintro s rfl hfb
    exact State.frame_of_empty hfb
  have hlast : (List.replicate (192 * c.numDrivers) false).getLast? = some false := by
    rw [List.getLast?_replicate, if_neg (by omega)]
  simp only [State.initialised, State.displayed, State.dcLoaded, State.pinned, State.sendBits, State.initial,
    hframe, dcStream_max, hlast]
  simp [Level.ofBit, length_bitEvents]
  omega

end Sys2Proof.Machine
